-- ==== Sys2Proof/Word.lean ====
section
/-! DEFINITION. The word types of the block and nothing else: bytes, 32-bit registers, 64-bit values (R4). -/
namespace Sys2Proof

/-- One byte of memory, of a packet or of a frame. -/
abbrev Byte := BitVec 8

/-- One 32-bit register (R8 lane width; R121). -/
abbrev Word := BitVec 32

/-- One 64-bit value. -/
abbrev DWord := BitVec 64

/-- A string of bytes, first byte first. -/
abbrev Bytes := List Byte

end Sys2Proof
end

