-- ==== Sys2Proof/Syntax.lean ====
section
/-! DEFINITION. The commands of the block: one constructor of Instr per row of spec/opcode_table.json, in the table's
order. The table gives no bits, so the operands are the model's: a unit, a master with an address and a value, data that
came from outside, or what the environment showed. -/
namespace Sys2Proof

/-- Who makes a register access (R116, R127). -/
inductive Master where
  | host | caretaker | tutor
  deriving DecidableEq, Repr, Inhabited

/-- What resets the host link (R139). -/
inductive HostLinkEvent where
  | linkDown | hotReset | flr | d3hot
  deriving DecidableEq, Repr, Inhabited

/-- The two caretaker mailboxes (R428). -/
inductive Mbox where
  | host | i3c
  deriving DecidableEq, Repr, Inhabited

/-- What a read of one DRAM line finds beyond what the model holds of it (R347). -/
inductive LineFinding where
  | clean | corrected (device : Fin 10) | uncorrectable
  deriving DecidableEq, Repr, Inhabited

/-- A received Ethernet frame (R181 to R183): its bytes from the destination address through the frame check sequence, and the
FEC codewords that carried it which were corrected, and could not be (R207). -/
structure EthFrame where
  fecCorrected : Nat
  fecLost : Nat
  raw : Bytes
  deriving DecidableEq, Repr, Inhabited

/-- What boot stages 2 to 5 find (R348, R407, R417). -/
structure BootFindings where
  securityOk : Bool
  quarantined : List (Fin 1152)
  /-- Per channel 0 to 15: state code of R348 and capacity code of R359. -/
  channels : List (Nat × Nat)
  failedPorts : List (Fin 4)
  failedEth : List (Fin 2)
  deriving DecidableEq, Repr, Inhabited

/-- One sample of the caretaker's sensors (R429). -/
structure Sensors where
  vin : Nat
  iin : Nat
  pin : Nat
  dies : List Int
  dimms : List (Option Int)
  coolant : Int
  deriving DecidableEq, Repr, Inhabited

abbrev Quad := Fin 8
abbrev Seat := Fin 1302
abbrev TileIx := Fin 1152
abbrev ClusterIx := Fin 72
abbrev TutorIx := Fin 1238
abbrev RingIx := Fin 16384
abbrev Greg := Fin 32
abbrev Tag := BitVec 48

/-- The end of a task's work: its quadrant, and what its unit met in it, corrected slate or board words (R134, R135) and
cycles that its cluster's crossbar made it wait (R135). -/
structure TaskEnd where
  quad : Quad
  corrected : Nat
  stalls : Nat
  deriving DecidableEq, Repr, Inhabited

/-- The commands. A row's name in opcode_table.json is the constructor's in capitals; LAWS.json gives the map. -/
inductive Instr where
  -- bells, phase tracker, pins (R23 to R30, R450 to R452)
  | stepInEdge (falling : Bool)
  | auxInEdge (falling : Bool)
  | phtBellDb (m : Master) (v : Word)
  | bellFlit (port : Fin 4) (origin : BitVec 11) (count : Tag)
  | lockWindowExpiry
  | holdLimitExpiry
  | phtEnable (m : Master) (v : Word)
  | phtDisable (m : Master) (v : Word)
  | gpioEdge (pin : Fin 4) (falling : Bool)
  | auxCapTbRead (m : Master)
  | loRead (m : Master) (bar2 : Bool) (addr : BitVec 48) (width : BitVec 13)
  -- timetable (R31 to R34, R459)
  | ttbEntryArm (m : Master) (n : BitVec 8) (v : Word)
  | ttbEntryDisarm (m : Master) (n : BitVec 8) (v : Word)
  | ttbEnable (m : Master) (v : Word)
  | ttbEntryFire (n : BitVec 8)
  -- emission and statistics (R35 to R47, R100 to R102)
  | encodeTask (seat : Seat)
  | emissionEnd (stream : Fin 64)
  | statsObserve (unit : ClusterIx)
  | tagSeal (unit : ClusterIx) (stream : Fin 64) (tag : Tag)
  | snapshotCopyEnd
  | attSnap (m : Master) (v : Word)
  -- Plat and seating (R49 to R83)
  | platLoad (data : Option Bytes)
  | seatingComplete
  | holdSwitchClear (m : Master) (v : Word)
  | reseatOpen (seat : Seat)
  -- scheduler (R84 to R99)
  | taskPacket (q : Quad) (port : Fin 4) (k : Nat)
  | heldPacketAdmit (q : Quad) (port : Fin 4)
  | taskDispatch (q : Quad)
  | agePromote (q : Quad) (index : BitVec 12)
  | taskComplete (seat : Seat) (e : TaskEnd)
  | resultRelease (q : Quad)
  | lafPost (q : Quad)
  -- tutor control (R106, R110, R111)
  | tutorRun (m : Master) (t : TutorIx) (v : Word)
  | tutorClrFault (m : Master) (t : TutorIx) (v : Word)
  | tutorTimer (t : TutorIx)
  | tutorBudgetFault (t : TutorIx)
  | tutorWake (t : TutorIx)
  -- drill instructions, by the tutor t that executes them (R113 to R115)
  | add (t : TutorIx) (rd ra rb : Greg)
  | sub (t : TutorIx) (rd ra rb : Greg)
  | and (t : TutorIx) (rd ra rb : Greg)
  | or (t : TutorIx) (rd ra rb : Greg)
  | xor (t : TutorIx) (rd ra rb : Greg)
  | sll (t : TutorIx) (rd ra rb : Greg)
  | srl (t : TutorIx) (rd ra rb : Greg)
  | sra (t : TutorIx) (rd ra rb : Greg)
  | slt (t : TutorIx) (rd ra rb : Greg)
  | sltu (t : TutorIx) (rd ra rb : Greg)
  | mul (t : TutorIx) (rd ra rb : Greg)
  | mulh (t : TutorIx) (rd ra rb : Greg)
  | mulhu (t : TutorIx) (rd ra rb : Greg)
  | clz (t : TutorIx) (rd ra : Greg)
  | crc32c (t : TutorIx) (rd ra rb : Greg)
  | crcb (t : TutorIx) (rd ra rb : Greg)
  | mix64 (t : TutorIx) (rd ra : Greg)
  | reduce (t : TutorIx) (rd ra rb : Greg)
  | addi (t : TutorIx) (rd ra : Greg) (imm : BitVec 16)
  | andi (t : TutorIx) (rd ra : Greg) (imm : BitVec 16)
  | ori (t : TutorIx) (rd ra : Greg) (imm : BitVec 16)
  | slli (t : TutorIx) (rd ra : Greg) (imm : BitVec 16)
  | srli (t : TutorIx) (rd ra : Greg) (imm : BitVec 16)
  | srai (t : TutorIx) (rd ra : Greg) (imm : BitVec 16)
  | lui (t : TutorIx) (rd : Greg) (imm : BitVec 16)
  | lw (t : TutorIx) (rd ra : Greg) (imm : BitVec 16)
  | lbu (t : TutorIx) (rd ra : Greg) (imm : BitVec 16)
  | sw (t : TutorIx) (rd ra : Greg) (imm : BitVec 16)
  | sb (t : TutorIx) (rd ra : Greg) (imm : BitVec 16)
  | jalr (t : TutorIx) (rd ra : Greg) (imm : BitVec 16)
  | beq (t : TutorIx) (ra rb : Greg) (off : BitVec 16)
  | bne (t : TutorIx) (ra rb : Greg) (off : BitVec 16)
  | blt (t : TutorIx) (ra rb : Greg) (off : BitVec 16)
  | bge (t : TutorIx) (ra rb : Greg) (off : BitVec 16)
  | bltu (t : TutorIx) (ra rb : Greg) (off : BitVec 16)
  | bgeu (t : TutorIx) (ra rb : Greg) (off : BitVec 16)
  | loop (t : TutorIx) (ra : Greg) (off : BitVec 16)
  | j (t : TutorIx) (off : BitVec 26)
  | call (t : TutorIx) (off : BitVec 26)
  | send (t : TutorIx) (r rt : Greg) (queue : Byte)
  | sendTask (t : TutorIx) (r : Greg)
  | sendCancel (t : TutorIx) (r : Greg)
  | sendResub (t : TutorIx) (r : Greg)
  | sendRingpost (t : TutorIx) (r : Greg)
  | sendGo (t : TutorIx) (r : Greg)
  | sendnb (t : TutorIx) (r rt : Greg) (queue : Byte) (st : Greg)
  | recv (t : TutorIx) (r : Greg) (queue : Byte)
  | recvLaf (t : TutorIx) (r : Greg)
  | recvnb (t : TutorIx) (r : Greg) (queue : Byte) (st : Greg)
  | qcnt (t : TutorIx) (r : Greg) (queue : Byte)
  | wait (t : TutorIx) (rd ra : Greg)
  | sig (t : TutorIx) (ra : Greg) (imm : BitVec 4)
  | settmr (t : TutorIx) (ra : Greg)
  | rdstep (t : TutorIx) (rd : Greg) (imm : BitVec 4)
  | fence (t : TutorIx)
  | halt (t : TutorIx)
  -- register and aperture accesses (R117 to R131)
  | registerWrite (m : Master) (addr : BitVec 48) (width : BitVec 8) (v : DWord)
  | bitAliasWrite (m : Master) (addr : BitVec 48) (width : BitVec 8) (v : Word)
  | apertureWrite (offset : BitVec 24) (data : Bytes)
  | bar4Access (write : Bool) (offset : BitVec 48) (length : Nat) (data : Bytes)
  -- counter clears
  | tileCounterClear (m : Master) (tile : TileIx) (v : Word)
  | tileInject (m : Master) (tile : TileIx) (v : Word)
  | cluClear (m : Master) (c : ClusterIx) (v : Word)
  | cluStatClear (m : Master) (c : ClusterIx) (v : Word)
  | tilColClear (m : Master) (tile : TileIx) (v : Word)
  | tilMxClear (m : Master) (tile : TileIx) (v : Word)
  | selClear (m : Master) (tile : TileIx) (v : Word)
  | gthClear (m : Master) (c : ClusterIx) (v : Word)
  | replDisable (m : Master) (c : ClusterIx) (v : Word)
  | cmpClear (m : Master) (q : Quad) (v : Word)
  | memTdClear (m : Master) (v : Word)
  | memErrClear (m : Master) (v : Word)
  -- rings and descriptors (R139 to R157)
  | ringEnable (m : Master) (n : RingIx) (v : Word)
  | ringDisable (m : Master) (n : RingIx) (v : Word)
  | doorbell (offset : BitVec 26) (width : BitVec 8) (v : DWord)
  | descriptorFetch (data : List (Option Bytes))
  | copyIn (n : RingIx) (data : Option Bytes)
  | inPlace (n : RingIx)
  | rxBuffer (n : RingIx)
  | cmpJob (n : RingIx)
  | nop
  | allocAdd
  | allocFree
  | tdescCreate (data : Option Bytes)
  | tdescDestroy
  | tdescRemove (slot : BitVec 16)
  | fragApply
  | fragWithdraw
  | taskInject
  | cancel
  | completionPost (n : RingIx)
  | eventPost (n : RingIx)
  | irqTimer (n : RingIx)
  | msixUnmask (vector : BitVec 11)
  | rxDelivery (n : RingIx)
  | hostLinkReset (e : HostLinkEvent)
  | perst (low : Bool)
  -- intake and the epoch cache (R159 to R180)
  | decodeTask (seat : Seat)
  | assistTimeout (c : Fin 16) (ticket : BitVec 24)
  | replayBatchSend (c : Fin 16)
  | windowSwap (c : Fin 16)
  | cmdSwap (m : Master) (c : Fin 16) (v : Word)
  | cmdTermAdvance (m : Master) (c : Fin 16) (v : Word)
  -- Ethernet, streams, RoCEv2, lookups (R181 to R207)
  | ethFrame (p : Fin 2) (f : EthFrame)
  | pfcFrame (p : Fin 2)
  | addressRequest (p : Fin 2)
  | streamFrame (p : Fin 2)
  | blockClose (g : Fin 16)
  | streamIdle (s : Fin 1024)
  | pfcRepeat (g : Fin 16)
  | spillDrain (g : Fin 16)
  | rocePacket (p : Fin 2)
  | lookupRequest (p : Fin 2)
  | lookupResponse (p : Fin 2)
  | lookupTimeout (p : Fin 2) (slot : BitVec 12)
  -- seat work (R208 to R329)
  | filterTask (seat : Seat)
  | hashTask (seat : Seat)
  | bucketTask (seat : Seat)
  | normTask (seat : Seat)
  | joinBuildTask (seat : Seat)
  | joinProbeTask (seat : Seat)
  | sequenceTask (seat : Seat)
  | moveTask (seat : Seat)
  | matrixTask (seat : Seat)
  | matrixStoreEnd (seat : Seat)
  | gatherTask (seat : Seat)
  | readReq
  | readRsp
  | scatterTask (seat : Seat)
  | updateApply (table : BitVec 16)
  | replicaRefreshEnd (group : BitVec 8)
  | selectTask (seat : Seat)
  -- compression and memory (R330 to R359)
  | cmpJobStart (q : Quad) (pack : Bool)
  | cmpJobEnd (q : Quad) (pack : Bool)
  | cmpSubmitGo (m : Master) (q : Quad) (v : Word)
  | dramRefresh (ch : Fin 16)
  | scrubRead (ch : Fin 16) (found : LineFinding)
  -- the Miohar fabric (R360 to R394)
  | linkSignalDetect (p : Fin 4)
  | linkSignalLoss (p : Fin 4)
  | trainingTimeout (p : Fin 4)
  /-- The alignment marker (symbols 0 to 15) and the control symbols (16 to 31) of a frame as received on a lane (R367). -/
  | trainingFrame (p : Fin 4) (lane : Fin 8) (marks control : List Nat)
  | prbsTestEnd (p : Fin 4) (errors : List Nat)
  | paramRecord (p : Fin 4) (record : Bytes)
  | portRetrain (m : Master) (p : Fin 4) (v : Word)
  /-- A group as the partner sent it, and the places at which the lanes erred: lane and symbol of the group on it (R362, R365). -/
  | flitGroup (p : Fin 4) (errors : List (Nat × Nat)) (gseq ack : BitVec 12) (kind : BitVec 2) (flits : List Bytes)
  | nakRepeat (p : Fin 4)
  | flitForward
  | taskMessage
  | ack
  | fenceFlit (src : BitVec 11) (gen : Byte)
  | fenceTimeout (src : BitVec 11)
  | requestTimeout (msg : BitVec 16)
  | ringFlit (port : Fin 4) (origin : BitVec 11) (seq : Word) (payload : Bytes)
  | stDataWrite (m : Master) (p : Fin 4) (v : Word)
  | tableCommit (m : Master) (p : Fin 4) (v : Word)
  | shuntChange (column closed : Bool)
  -- faults (R395 to R412)
  | faultOccurrence (source : Fin 512) (unit detail addr : Nat)
  | graceExpiry
  | fltAck (m : Master) (v : Word)
  | resume (m : Master) (v : Word)
  | tileFail (tile : TileIx) (detail : Fin 5) (addr : Nat)
  | abortSeal (unit : ClusterIx) (stream : Fin 64)
  -- power, reset, boot (R413 to R420)
  | powerInputRise (mV : Nat)
  | powerInputFall (mV : Nat)
  | powerGood
  | powerGoodTimeout
  | modResetPin (low : Bool)
  | ctkReset (m : Master) (v : Word)
  | bootStageEnd (f : BootFindings)
  | bootStageFail (overrun : Bool)
  -- mailboxes (R422 to R428)
  | getCert (mb : Mbox) (len : Nat) (writable : Bool)
  | attest (mb : Mbox) (data : Option Bytes)
  | fwUpdate (data : Option Bytes)
  | fwCommitSvn
  | enrollKey (data : Option Bytes)
  | revokeKey (data : Option Bytes)
  | setConfig (mb : Mbox) (data : Option Bytes)
  | moduleReset (mb : Mbox)
  -- thermal control, telemetry, pins, late rows
  | thermalEval (die0 die1 : Int)
  | powerCapEval (meanPower : Nat)
  | telemetryRefresh (t : Sensors)
  | osfpPoll (p : Fin 2) (medium : Nat) (healthy : Bool)
  | pinRoleGrant
  | gpioPulseEnd (pin : Fin 4)
  | stepOutPulseEnd
  | ethLinkChg (p : Fin 2) (up : Bool)
  | pfcRxPauseEnd (p : Fin 2) (pri : Fin 8)
  | aliveToggle
  | powerStageRetry
  deriving DecidableEq, Repr, Inhabited

end Sys2Proof
end

