-- ==== Sys2Proof/Config.lean ====
section
/-! DEFINITION. What the spec leaves open: the free values, and the functions that other standards define
(cryptography, compressed streams, third-party table formats). None has a body, so nothing can be proved of a value of one. -/
namespace Sys2Proof

/-- One row's part of a column: list lengths level by level, and the innermost values, `none` for a null. -/
structure Cell where
  lens : List (List Nat)
  vals : List (Option Bytes)
  deriving DecidableEq, Repr, Inhabited

/-! What a reader of Apache Arrow and Apache Parquet finds in a message or page (R163, R164). The formats are named standards;
what is accepted of them, and what comes of it, the model decides. -/

/-- The type of an Arrow field. -/
inductive ArrowType where
  | int (bits : Nat) (signed : Bool)
  | bool
  /-- Date32, Date64, Time32, Time64, Timestamp or Duration, by the width of its integer storage. -/
  | stored (bits : Nat)
  | float (bits : Nat)
  /-- Binary or Utf8 with 32-bit offsets. -/
  | binary
  | fixedBinary (width : Nat)
  /-- List with 32-bit offsets, or FixedSizeList. -/
  | list (item : ArrowType)
  /-- Every other type. -/
  | other
  deriving DecidableEq, Repr, Inhabited

/-- A field of an Arrow schema: its storage type, and where it is dictionary encoded the dictionary's ID and the index width. -/
structure ArrowField where
  type : ArrowType
  dict : Option (Nat × Nat)
  deriving DecidableEq, Repr, Inhabited

/-- A value as it stands in a message or page: null, its bytes, or an index into the dictionary. -/
inductive RawVal where
  | null | bytes (b : Bytes) | index (i : Int)
  deriving DecidableEq, Repr, Inhabited

/-- One row's part of a column before dictionaries are looked up. -/
structure RawCell where
  lens : List (List Nat)
  vals : List RawVal
  /-- A repetition or definition level lies above the schema maximum. -/
  levelBad : Bool := false
  deriving DecidableEq, Repr, Inhabited

/-- The buffers of an Arrow record batch or dictionary batch. -/
structure ArrowBuffers where
  /-- Length of the body, and each buffer's offset and length in it. -/
  body : Nat
  at_ : List (Nat × Nat)
  /-- Offset arrays, each with the number of values or bytes they point into. -/
  offsets : List (List Int × Nat)
  /-- Body compression: none, LZ4_FRAME (5) or ZSTD (6) by the codes of R333, or another. -/
  codec : Option Nat
  /-- Compressed buffers, those marked with length −1 left out: the uncompressed length and the stream. -/
  streams : List (Nat × Bytes)
  deriving DecidableEq, Repr, Inhabited

/-- The content of an Arrow IPC message. -/
inductive ArrowBody where
  | schema (little : Bool) (fields : List ArrowField)
  | dictionary (id : Nat) (delta : Bool) (bufs : ArrowBuffers) (values : List Bytes)
  /-- Its number of rows, its buffers, and per row the cell of each field. -/
  | batch (rows : Nat) (bufs : ArrowBuffers) (cells : List (List RawCell))
  | endOfStream
  /-- Tensor, SparseTensor, or metadata that is none of these. -/
  | other
  deriving DecidableEq, Repr, Inhabited

/-- An Arrow IPC message: the bytes it takes, whether the descriptor holds all of them, its metadata version. -/
structure ArrowMsg where
  len : Nat
  whole : Bool
  version : Nat
  content : ArrowBody
  deriving DecidableEq, Repr, Inhabited

inductive PqKind where
  | dataV1 | dataV2 | dictionary | index
  deriving DecidableEq, Repr, Inhabited

inductive PqEncoding where
  | plain | plainDictionary | rleDictionary | rle | deltaBinaryPacked | bitPacked | deltaLengthByteArray | deltaByteArray
  | byteStreamSplit
  deriving DecidableEq, Repr, Inhabited

inductive PqType where
  | int32 | int64 | int96 | boolean | float | double | byteArray | fixedLen (width : Nat)
  deriving DecidableEq, Repr, Inhabited

inductive PqCodec where
  | uncompressed | snappy | lz4Raw | zstd | gzip | lzo | brotli | lz4
  deriving DecidableEq, Repr, Inhabited

/-- A Parquet page. -/
structure PqPage where
  /-- Bytes it takes with its header, and whether the descriptor holds all of them. -/
  len : Nat
  whole : Bool
  /-- The header reads as Thrift compact; with `readable` false the rest says nothing. -/
  readable : Bool
  encrypted : Bool
  kind : PqKind
  encoding : PqEncoding
  /-- Encodings of the levels. -/
  levels : List PqEncoding
  type : PqType
  /-- Greatest repetition and definition level of the column. -/
  rep : Nat
  defn : Nat
  codec : PqCodec
  /-- Compressed and uncompressed page size of the header. -/
  size : Nat
  full : Nat
  /-- The compressed part, and its uncompressed size. -/
  stream : Bytes
  streamFull : Nat
  /-- The decoded size, the header's value count, and the values the page holds. -/
  decoded : Nat
  count : Nat
  held : Nat
  /-- Values of a dictionary page. -/
  dict : List Bytes
  /-- Rows of a data page, and the repetition level of its first value: 0 when a row begins there. -/
  first : Nat
  rows : List RawCell
  deriving DecidableEq, Repr, Inhabited

/-- What an expansion of a compressed stream finds (R333, R341). -/
structure ExpandOut where
  /-- Sizes the stream declares: LZ4 frame, Zstandard, Snappy preamble. -/
  declared : List Nat
  /-- Its elements are well formed, none refers to before the start of the output, and it does not end early. -/
  sound : Bool
  /-- The bytes it takes, for Zstandard with the skippable frames before and after it. -/
  used : Nat
  /-- Preset dictionary ID, 0 for none; window and greatest block in bytes. -/
  dictId : Nat
  window : Nat
  blockMax : Nat
  /-- It is an LZ4 legacy frame, or in the Snappy framing format. -/
  foreign : Bool
  /-- The block and content checksums of an LZ4 frame, or the content checksum of a Zstandard frame, are right. -/
  sums : Bool
  /-- The original data, up to where the stream ends or fails. -/
  data : Bytes
  deriving DecidableEq, Repr, Inhabited

/-- A byte whose value the spec calls undefined or unspecified (R72, R342, R351, R408): the n-th such event, at an address. -/
opaque Config.freeByte : Nat → Nat → Byte
/-- A number the spec leaves open, one per use (log entry 1). -/
opaque Config.freeNat : Nat → Nat
/-- SHA-384 (named standard), as 48 bytes (R51). -/
opaque Config.sha384 : Bytes → Bytes
/-- The ECDSA equation of R422 check 5: public key point, digest, r, s. -/
opaque Config.ecdsaHolds : Bytes → Bytes → Nat → Nat → Bool
/-- Whether a point lies on brainpoolP384r1 and is not the point at infinity (R423). -/
opaque Config.onCurve : Bytes → Bool
/-- The signature (r, s), 96 bytes, that the identity key makes over a digest (R427). -/
opaque Config.identitySign : Bytes → Bytes
/-- The public key of the identity key (R426). -/
opaque Config.identityKey : Bytes
/-- The subject public key of a certificate chain's first certificate (R426). -/
opaque Config.certKey : Bytes → Bytes
/-- Expansion of a stream in a format of R333 (RFC 1950 to 1952, LZ4, Zstandard, Snappy). -/
opaque Config.expand : Nat → Bytes → ExpandOut
/-- Where a packer cuts its input into blocks, by format, search depth and input: lengths (R334). -/
opaque Config.packCuts : Nat → Nat → Bytes → List Nat
/-- Bits of a dynamic Huffman block behind its three header bits: search depth, history, input (R334, R335). -/
opaque Config.deflateBlock : Nat → Bytes → Bytes → List Bool
/-- An LZ4 block, and the content of a compressed Zstandard block with its history (R334, R335). -/
opaque Config.lz4Block : Nat → Bytes → Bytes
opaque Config.zstdBlock : Nat → Bytes → Bytes → Bytes
/-- Whether a Zstandard frame holds a content size in two bytes where the format lets it. -/
opaque Config.shortSize : Nat → Bool
/-- XXH32 and XXH64 with seed 0 (named standards of LZ4 and Zstandard). -/
opaque Config.xxh32 : Bytes → Nat
opaque Config.xxh64 : Bytes → Nat
/-- The Arrow message at the head of some bytes, under the fields of the schema in force (R163). -/
opaque Config.arrowNext : List ArrowField → Bytes → ArrowMsg
/-- The Parquet page at the head of some bytes, for a parameter block and a column entry of it (R164). -/
opaque Config.parquetNext : Bytes → Nat → Bytes → PqPage
/-- The bytes that a cached sample takes in the log, whose form the spec leaves open (R171): parameter block, cells. -/
opaque Config.logForm : Bytes → List Cell → Bytes
/-- The cells that bytes of the log hold, where the model has not written them itself (R176): parameter block, bytes. -/
opaque Config.logCells : Bytes → Bytes → List Cell
/-- Histories in a sequence's memory whose contents the spec leaves undefined (R72): per key, time, ordinal, carried bytes. -/
opaque Config.freeHistory : Nat → List (Nat × List (Nat × Nat × Bytes))
/-- The public keys of slots 0 to 3, points of 97 bytes, which ROM and firmware hold (R421). -/
opaque Config.romKey : Nat → Bytes
/-- The drill of the ring manager, which the caretaker firmware supplies (R390). -/
opaque Config.ringManager : Bytes
/-- The cycle count that a tutor's RDSTEP reads in the first timebase cycle, and the cycles of a port's domain in 65,536 timebase
cycles, by dense tutor (R16, R114). -/
opaque Config.cycleOrigin : Nat → Nat
opaque Config.portRate : Nat → Nat
/-- When the n-th load of an attendance bank copies the counter at an offset, in timebase cycles from its start (R102). -/
opaque Config.copyTime : Nat → Nat → Nat
/-- The rank in which one of several seats, entries or channels the spec does not order is taken. -/
opaque Config.freePick : Nat → Nat → Nat
/-- The text of a console line: the boot stage that begins, or the stage that failed with its FAIL code (R430). -/
opaque Config.consoleText : Nat → Option Nat → Bytes

end Sys2Proof
end

