-- ==== Sys2Proof/Machine/Data.lean ====
section
/-! DEFINITION. Plain tools over data: sorted tables, bit fields, byte strings, the rounding of R4, the CRC-32C of R219.
Nothing here knows the block. -/
namespace Sys2Proof.Machine

/-- A table: entries by number, rising, each number at most once (kept so by tput and tdel). -/
abbrev Tbl (α : Type) := List (Nat × α)

/-- The entry of a number, if there is one. -/
def tfind {α : Type} : Tbl α → Nat → Option α
  | [], _ => none
  | (k, v) :: t, n => if k = n then some v else tfind t n

/-- The entry of a number, or a default. -/
def tget {α : Type} (d : α) (t : Tbl α) (n : Nat) : α := (tfind t n).getD d

/-- Enter a value under a number. -/
def tput {α : Type} : Tbl α → Nat → α → Tbl α
  | [], n, x => [(n, x)]
  | (k, v) :: t, n, x =>
    if n < k then (n, x) :: (k, v) :: t else if n = k then (n, x) :: t else (k, v) :: tput t n x

/-- Take a number out of a table. -/
def tdel {α : Type} : Tbl α → Nat → Tbl α
  | [], _ => []
  | (k, v) :: t, n => if k = n then tdel t n else (k, v) :: tdel t n

/-- Change the entry of a number (a missing entry counts as the default). -/
def tmod {α : Type} (d : α) (t : Tbl α) (n : Nat) (f : α → α) : Tbl α := tput t n (f (tget d t n))

/-- Bits hi down to lo of a number. -/
def bits (x hi lo : Nat) : Nat := x / 2 ^ lo % 2 ^ (hi + 1 - lo)

/-- One bit of a number. -/
def bit (x i : Nat) : Bool := x / 2 ^ i % 2 == 1

/-- 1 for true. -/
def b2n (b : Bool) : Nat := if b then 1 else 0

/-- A field value at its place. -/
def at_ (v lo : Nat) : Nat := v * 2 ^ lo

/-- Two's complement reading of the low w bits. -/
def sx (w x : Nat) : Int := let y := x % 2 ^ w; if 2 * y < 2 ^ w then (y : Int) else (y : Int) - (2 ^ w : Nat)

/-- Two's complement writing in w bits. -/
def tc (w : Nat) (i : Int) : Nat := (i % (2 ^ w : Nat)).toNat

/-- Clamp to a range. -/
def clampI (lo hi v : Int) : Int := if v < lo then lo else if hi < v then hi else v

/-- v / d rounded half to even, for positive d (R4, R28). -/
def rneDiv (v d : Int) : Int :=
  let q := v / d
  let r := v % d
  if 2 * r < d then q else if d < 2 * r then q + 1 else if q % 2 = 0 then q else q + 1

/-- rne(v, s) of R28: v divided by 2^s, rounded half to even; a negative shift multiplies. -/
def rne (v : Int) (s : Nat) : Int := rneDiv v (2 ^ s : Nat)

/-- Ceiling of a / b. -/
def ceilDiv (a b : Nat) : Nat := (a + b - 1) / b

/-- Round up to a multiple. -/
def upTo (a m : Nat) : Nat := ceilDiv a m * m

/-- Saturating 32-bit addition of a count. -/
def sat32 (a b : Nat) : Nat := min (a + b) 0xFFFFFFFF

/-- n bytes of a number, least significant first (R4). -/
def leB : Nat → Nat → Bytes
  | 0, _ => []
  | n + 1, v => BitVec.ofNat 8 v :: leB n (v / 256)

/-- The number that little-endian bytes spell (R4). -/
def ofLe : Bytes → Nat
  | [] => 0
  | b :: t => b.toNat + 256 * ofLe t

/-- Big-endian number of bytes (network order, DER and certificate fields). -/
def ofBe (b : Bytes) : Nat := ofLe b.reverse

/-- n bytes at an offset; bytes past the end read as zero. -/
def slice (b : Bytes) (off n : Nat) : Bytes :=
  let s := (b.drop off).take n
  s ++ List.replicate (n - s.length) 0#8

/-- A little-endian field of a byte string. -/
def fld (b : Bytes) (off n : Nat) : Nat := ofLe (slice b off n)

/-- A big-endian field of a byte string. -/
def fldBe (b : Bytes) (off n : Nat) : Nat := ofBe (slice b off n)

/-- Whether all bytes of a field are zero. -/
def zeroAt (b : Bytes) (off n : Nat) : Bool := (slice b off n).all (· == 0#8)

/-- n zero bytes. -/
def zeros (n : Nat) : Bytes := List.replicate n 0#8

/-- Overwrite bytes of a string at an offset (bytes past its end are dropped). -/
def patch (b : Bytes) (off : Nat) (v : Bytes) : Bytes :=
  let v := v.take (b.length - off)
  b.take off ++ v ++ b.drop (off + v.length)

/-- Pad with zeros to a length. -/
def padTo (n : Nat) (b : Bytes) : Bytes := b ++ zeros (n - b.length)

/-- Pad with zeros to a multiple. -/
def padMul (m : Nat) (b : Bytes) : Bytes := padTo (upTo b.length m) b

/-- The first n naturals that satisfy a test. -/
def firstWhere (p : Nat → Bool) : Nat → Nat → Option Nat
  | 0, _ => none
  | n + 1, i => if p i then some i else firstWhere p n (i + 1)

/-- Insert into a list sorted by a measure, after equals. -/
def insertBy {α : Type} (le : α → α → Bool) (x : α) : List α → List α
  | [] => [x]
  | y :: t => if le y x then y :: insertBy le x t else x :: y :: t

/-- Stable insertion sort. -/
def sortBy {α : Type} (le : α → α → Bool) (l : List α) : List α := l.foldl (fun acc x => insertBy le x acc) []

/-- Drop later repeats. -/
def dedup {α : Type} [DecidableEq α] : List α → List α
  | [] => []
  | x :: t => x :: (dedup t).filter (fun y => decide (y ≠ x))

/-- The longest list of pieces of n elements. -/
def chunks {α : Type} (n : Nat) : Nat → List α → List (List α)
  | 0, _ => []
  | f + 1, l => if l.isEmpty then [] else l.take n :: chunks n f (l.drop n)

/-- Pieces of n elements (n > 0). -/
def chunk {α : Type} (n : Nat) (l : List α) : List (List α) := chunks n l.length l

/-- One bit step of the reflected CRC-32C polynomial 0x1EDC_6F41 (R219). -/
def crcBit (c : BitVec 32) : BitVec 32 :=
  if c.getLsbD 0 then (c >>> 1) ^^^ 0x82F63B78#32 else c >>> 1

/-- One byte into a raw CRC-32C state, no inversion (R219). -/
def crcByte (c : BitVec 32) (b : Byte) : BitVec 32 :=
  crcBit (crcBit (crcBit (crcBit (crcBit (crcBit (crcBit (crcBit (c ^^^ b.setWidth 32))))))))

/-- CRC-32C of a byte string: initial value and final XOR 0xFFFF_FFFF (R219). -/
def crc32c (b : Bytes) : BitVec 32 := (b.foldl crcByte 0xFFFFFFFF#32) ^^^ 0xFFFFFFFF#32

/-- The mixing function MIX64 of R220. -/
def mix64 (x : BitVec 64) : BitVec 64 :=
  let x := (x ^^^ (x >>> 31)) * 0x9E6B53A14F2DC6B5#64
  let x := (x ^^^ (x >>> 29)) * 0xD1B73C8529E1F0A3#64
  x ^^^ (x >>> 32)

/-- The byte hash of a string with a seed (R221). -/
def byteHash (seed : BitVec 64) (b : Bytes) : BitVec 64 :=
  (chunk 8 b).foldl (fun h c => mix64 (h ^^^ BitVec.ofNat 64 (ofLe c))) (mix64 (seed ^^^ BitVec.ofNat 64 b.length))

end Sys2Proof.Machine
end

