-- ==== Sys2Proof/Machine/State.lean ====
section
/-! DEFINITION. The state of the block as plain data, Fault and Refusal, and State.reset. Writable and counting registers
live in one register file keyed by device address (R116); the rest of the state is held in the structures below. -/
namespace Sys2Proof.Machine

/-- No command stops this block with a fault: what the spec calls a fault is state (R395). Nobody raises this; it is
kept so that the interface has a name for a stop. -/
inductive Fault where
  /-- Raised by no command; stopping is safe. -/
  | stopped
  deriving DecidableEq, Repr

/-- Why a command has no next state. -/
inductive Refusal where
  /-- Raised by an arm of exec that has no meaning yet; stopping is safe. -/
  | notModelled (mnemonic : String)
  deriving DecidableEq, Repr

/-- The status codes of R158. -/
inductive Status where
  | ok | lenRange | descInvalid | outOfAlloc | staleSeat | cancelled | outputFull | checkMismatch | declaredSize
  | format | late | corruptSample | eccUncorrectable | linkDown | homeUnreachable | abortedStep | platConflict
  | padOverlap | signature | substituted
  deriving DecidableEq, Repr, Inhabited

/-- The 8-bit value of a status (R158). -/
def Status.code : Status → Nat
  | .ok => 0 | .lenRange => 1 | .descInvalid => 2 | .outOfAlloc => 3 | .staleSeat => 4 | .cancelled => 5
  | .outputFull => 6 | .checkMismatch => 7 | .declaredSize => 8 | .format => 9 | .late => 10 | .corruptSample => 11
  | .eccUncorrectable => 12 | .linkDown => 13 | .homeUnreachable => 14 | .abortedStep => 15 | .platConflict => 16
  | .padOverlap => 17 | .signature => 18 | .substituted => 19

/-- The status of an 8-bit value, OK for a value that is never reported. -/
def Status.ofCode (n : Nat) : Status :=
  ([.ok, .lenRange, .descInvalid, .outOfAlloc, .staleSeat, .cancelled, .outputFull, .checkMismatch, .declaredSize,
    .format, .late, .corruptSample, .eccUncorrectable, .linkDown, .homeUnreachable, .abortedStep, .platConflict,
    .padOverlap, .signature, .substituted] : List Status).getD n .ok

/-- Device memory: DRAM, slates and boards (R116). `cells` holds the bytes that differ from what an unlisted address
reads as, by strictly rising address; `scrambled` the ranges (start, length, seed) whose contents the spec leaves
undefined, the latest first. -/
structure Memory where
  cells : List Host.Cell := []
  scrambled : List (Nat × Nat × Nat) := []
  deriving DecidableEq, Repr, Inhabited

/-- What the RoCEv2 responder sends (R199, R200). -/
inductive RoceReply where
  | ack | nakSequence | nakInvalid | nakAccess
  | rnr (timer : Nat)
  | cnp
  deriving DecidableEq, Repr, Inhabited

/-- The addressing of a frame (R182): MAC addresses, tag control information of its 802.1Q tag, IP addresses, UDP ports. -/
structure EthWay where
  dmac : Nat
  smac : Nat
  tag : Option Nat
  v6 : Bool
  src : Nat
  dst : Nat
  sport : Nat
  dport : Nat
  deriving DecidableEq, Repr, Inhabited

/-- What the block has sent outside it, oldest last: the model's record, read by nothing. -/
inductive Sent where
  /-- A memory write to the host; the flag is Relaxed Ordering (R138). -/
  | hostWrite (addr : Nat) (data : Bytes) (relaxed : Bool)
  | msix (vector : Nat)
  /-- A read completion with data, by master. -/
  | readData (data : Bytes)
  /-- A read completed as Unsupported Request (R117, R124). -/
  | readUr
  /-- A read completed with the poisoned indication (R356). -/
  | readPoisoned
  | frame (port : Nat) (data : Bytes)
  /-- A PFC frame: port, priority, quanta (R196). -/
  | pfc (port pri quanta : Nat)
  /-- A flit group sent on a port (R364): GKIND, GSEQ, ACK_SEQ and its five flits, and the symbols that each lane carries of it
  with the alignment marker before them (R362, R363). -/
  | group (port kind gseq ack : Nat) (flits : List Bytes) (lanes : List (Nat × List Nat))
  /-- A training frame of a lane: its 48 symbols (R367). -/
  | training (port lane : Nat) (symbols : List Nat)
  | pin (pin : Nat) (level : Bool)
  | stepOut (level : Bool)
  | alive (level : Bool)
  | i3c (data : Bytes)
  /-- A line of the UART console: the stage that begins, or the one that failed and its FAIL code; and the levels of UART_TX, one
  a bit time of 1/115,200 s (R417, R430). -/
  | console (stage : Nat) (fail : Option Nat) (levels : List Bool)
  /-- A UDP datagram of a port (R182, R204). -/
  | udp (port : Nat) (way : EthWay) (data : Bytes)
  /-- An ARP reply or Neighbour Advertisement of a port for its source address (R182). -/
  | addrReply (port : Nat) (way : EthWay)
  /-- A RoCEv2 reply: port, local queue pair, PSN, message sequence number. -/
  | roce (port : Nat) (way : EthWay) (qpn psn msn : Nat) (what : RoceReply)
  deriving DecidableEq, Repr, Inhabited

/-! Step time (R22 to R48) -/

inductive PhtMode where
  | unlocked | tracking | holdover
  deriving DecidableEq, Repr, Inhabited

/-- The phase tracker (R23 to R30): times in timebase cycles, X and P with 12 fractional bits. -/
structure Pht where
  step : Tag := 0
  x : Int := 0
  p : Int := 0
  mode : PhtMode := .unlocked
  havePrev : Bool := false
  inwin : Nat := 0
  outliers : Nat := 0
  tPrev : Nat := 0
  /-- Source code of the active source, 0 for none (R24). -/
  active : Nat := 0
  /-- Sampling count of the last accepted bell (R25). -/
  lastAcc : Option Nat := none
  /-- Count of cycle 1 of the last bell accepted since ENABLE, the origin of E (R29). -/
  origin : Option Nat := none
  /-- Latest shadow bell by source code (R27). -/
  shadow : Tbl Nat := []
  /-- The window after the last accepted bell has been examined (R27). -/
  examined : Bool := false
  /-- A bell of the active source has been sampled since the last accepted one (R27). -/
  activeSeen : Bool := false
  /-- The cycle in which the last bell was accepted, when that was in HOLDOVER (R27). -/
  heldAt : Option Nat := none
  holdSince : Nat := 0
  /-- End of the STEP_OUT pulse in progress (R449). -/
  stepOutUntil : Option Nat := none
  deriving DecidableEq, Repr, Inhabited

/-- A batch of an emit stream that is being collected or is ready (R40). -/
structure Batch where
  tag : Tag
  slot : Nat := 0
  used : Nat := 64
  positions : Nat := 0
  tokens : Nat := 0
  sequences : Nat := 0
  corrupt : Bool := false
  subst : Bool := false
  fail : Option Status := none
  closed : Bool := false
  /-- Packing job queued or running; the packed slot, once allotted. -/
  packing : Bool := false
  packed : Option (Nat × Nat) := none
  ready : Bool := false
  input : Nat := 0
  tokenBytes : Nat := 0
  deriving DecidableEq, Repr, Inhabited

/-- An emission in progress (R37, R41). -/
structure Emission where
  tag : Tag
  status : Status
  /-- Bytes before the trailer, and where they stand (none for an empty batch, whose bytes are the header). -/
  addr : Option Nat
  length : Nat
  tokens : Nat
  packed : Bool := false
  slots : List Nat := []
  /-- The 64 header bytes of an empty batch, which stand nowhere in memory. -/
  head : Bytes := []
  /-- Bytes all sent; the delivery waits for a buffer or an ACK. -/
  sentAll : Bool := false
  deriving DecidableEq, Repr, Inhabited

/-- An emit stream (R34 to R41). -/
structure EmitSt where
  batches : List Batch := []
  /-- EMIT_BATCH entries that have fired and wait: tag, the entry fired late, an empty batch's status. -/
  due : List (Tag × Bool × Option Status) := []
  cur : Option Emission := none
  /-- Tags whose real batch is dropped under SKIP. -/
  dropTags : List Tag := []
  deriving DecidableEq, Repr, Inhabited

/-- A field-book column record (R45). -/
structure FbRec where
  count : Nat := 0
  nulls : Nat := 0
  sum : Int := 0
  squares : Nat := 0
  min : Int := 0x7FFFFFFFFFFFFFFF
  max : Int := -0x8000000000000000
  sats : Nat := 0
  seed : Bool := false
  sumSat : Bool := false
  sqSat : Bool := false
  tag : Tag := 0
  ext : Nat := 0
  deriving DecidableEq, Repr, Inhabited

/-- A column's assignment (R458). -/
structure FbCol where
  unit : Nat
  stream : Nat
  exp : Int
  extAlloc : Nat
  seed : Bytes
  /-- Tags of the column that a fragment has discarded while they were open. -/
  void : List Tag := []
  deriving DecidableEq, Repr, Inhabited

/-- The tags of one stream at one statistics unit (R45, R409). -/
structure FbTags where
  /-- Open tags, ascending; the flag says that the tag's last record has passed. -/
  opened : List (Tag × Bool) := []
  /-- Sealed tags, newest first. -/
  sealed_ : List Tag := []
  /-- Aborted tags whose seal waits (R409). -/
  aborted : List Tag := []
  /-- The first tag of the stream since seating that work at the unit has named (R44). -/
  first : Option Tag := none
  deriving DecidableEq, Repr, Inhabited

/-- The field book (R43 to R47). -/
structure Fb where
  cols : Tbl FbCol := []
  /-- Banks, by column × 4 + tag mod 4. -/
  banks : Tbl FbRec := []
  /-- Tags, by dense cluster index × 64 + stream. -/
  tags : Tbl FbTags := []
  /-- Units whose record waits under R45, and the quadrant cycle up to which CLU_STAT_STALL_CYC counts it. -/
  waits : Tbl Nat := []
  /-- Sealed records of each column since it was assigned, newest first (R44). -/
  past : Tbl (List FbRec) := []
  standby : Tbl FbRec := []
  visible : Tbl FbRec := []
  changed : Bool := false
  /-- No record of the visible bank changed at the last bell (FLD_STATUS.STALE). -/
  stale : Bool := false
  deriving DecidableEq, Repr, Inhabited

/-- The attendance banks (R100 to R102), by bank offset. -/
structure Att where
  live : Tbl Nat := []
  shadow : Tbl Nat := []
  shadowOld : Tbl Nat := []
  /-- The load of the shadow bank in progress: when it began, and its number among the free values; shadowOld is what the bank
  held before. -/
  shadowLoad : Option (Nat × Nat) := none
  shadowStep : Tag := 0
  snap : Tbl Nat := []
  snapOld : Tbl Nat := []
  snapLoad : Option (Nat × Nat) := none
  snapStep : Tag := 0
  snapPhase : Nat := 0
  snapValid : Bool := false
  deriving DecidableEq, Repr, Inhabited

/-! The Plat (R49 to R83) -/

/-- A route in force (R61). -/
structure Route where
  id : Nat
  src : Nat
  dkind : Nat
  tc : Nat
  retire : Bool
  dest : Nat
  dquad : Nat
  role : Nat
  slot : Nat
  pri : Nat
  opcount : Nat
  stamp : Nat
  lane : Nat
  srcChan : Nat
  dstChan : Nat
  weight : Nat
  arg : Nat
  deriving DecidableEq, Repr, Inhabited

/-- An allocation record (R58). -/
structure Alloc where
  id : Nat
  kind : Nat
  iset : Nat
  flags : Nat
  base : Nat
  size : Nat
  unit : Nat
  owner : Nat
  fromPlat : Bool := true
  deriving DecidableEq, Repr, Inhabited

/-- A ring-map entry (R60). -/
structure RingMap where
  ring : Nat
  quad : Nat
  pri : Nat
  lane : Nat
  role : Nat
  slot : Nat
  cplRing : Nat
  channel : Nat
  privileged : Bool
  deriving DecidableEq, Repr, Inhabited

/-- A drill image (R65). -/
structure Drill where
  index : Nat
  kinds : Nat
  entry : Nat
  code : Bytes
  scratch : Bytes
  deriving DecidableEq, Repr, Inhabited

/-- A seating entry with its parameter block (R54). -/
structure SeatEntry where
  seat : Nat
  role : Nat
  pri : Nat
  drill : Nat
  subst : Nat
  params : Bytes
  /-- The drill image that it names in the DRILLS section of its own Plat. -/
  image : Option Drill := none
  deriving DecidableEq, Repr, Inhabited

/-- A TIMETABLE entry (R67). -/
structure TtEntry where
  index : Nat
  repeat_ : Bool
  phase : Nat
  ofs : Nat
  action : Nat
  interval : Nat
  arg : Nat
  deriving DecidableEq, Repr, Inhabited

/-- A FIELD_BOOK entry (R458). -/
structure FbEntry where
  column : Nat
  col : FbCol
  deriving DecidableEq, Repr, Inhabited

/-- A resource claim (R81): kind, shared, pin role, ID, and the section type and entry that makes it. -/
structure Claim where
  kind : Nat
  shared : Bool
  pinRole : Nat
  id : Nat
  section_ : Nat
  entry : Nat
  deriving DecidableEq, Repr, Inhabited

/-- A Plat that passed its checks, section by section (R49, R50). -/
structure Plat where
  kind : Nat := 0
  fragId : Nat := 0
  id : Nat := 0
  replicaBudget : Nat := 0
  streamBytes : Nat := 0
  peerBytes : Nat := 0
  seating : List SeatEntry := []
  allocs : List Alloc := []
  ringMap : List RingMap := []
  routes : List Route := []
  drills : List Drill := []
  timetable : List TtEntry := []
  fieldBook : List FbEntry := []
  resources : List Claim := []
  interleave : Bytes := []
  registers : List (Nat × Nat) := []
  /-- Tutor reference and image index. -/
  loads : List (Nat × Nat) := []
  /-- Its bytes, for the second check at the bell (R75). -/
  raw : Bytes := []
  deriving DecidableEq, Repr, Inhabited

/-- The descriptor a task, buffer or load came from. -/
structure Origin where
  ring : Nat
  index : Nat
  user : Nat
  irq : Bool
  op : Nat
  /-- Its number among all descriptors fetched. -/
  serial : Nat := 0
  /-- It was fetched while its channel diverted descriptors (R177). -/
  div : Bool := false
  deriving DecidableEq, Repr, Inhabited

/-- What the Plat has put in force, and what waits (R71 to R77). -/
structure PltSt where
  /-- A full Plat is seated. -/
  seated : Bool := false
  seating : Bool := false
  /-- Ring 0 waits for the end of a seating that a PLAT_LOAD began at once (R150). -/
  ringWait : Bool := false
  /-- The Plat being seated, and its load. -/
  incoming : Option (Plat × Option Origin) := none
  staged : Option (Plat × Option Origin) := none
  /-- SHA-384 of the seated Plat, over the bytes its signature covers (R427). -/
  digest : Bytes := zeros 48
  frags : Tbl Plat := []
  /-- Armed fragments in order: by a timetable entry (its index) or by ring 0 (none); FRAG_ID. -/
  armed : List (Option Nat × Nat) := []
  /-- Fragments withdrawn while armed. -/
  withdrawn : List Nat := []
  containers : List (Plat × Option Origin) := []
  /-- Tiles that failed since the last bell (dense tile index). -/
  failedTiles : List Nat := []
  /-- Substitutes in service: substitute tile, tile served (dense). -/
  serving : Tbl Nat := []
  /-- Seats closed by a re-seat until their drill is loaded: seat and the drill image, or none. -/
  opening : Tbl (Option Drill) := []
  seats : List SeatEntry := []
  allocs : List Alloc := []
  /-- Rotation pointer of an allocation's slots, by ALLOC_ID (R162). -/
  rotate : Tbl Nat := []
  ringMap : List RingMap := []
  routes : List Route := []
  claims : List Claim := []
  deriving DecidableEq, Repr, Inhabited

/-! Tasks and tutors (R84 to R115) -/

/-- A task packet on its way: its 32 bytes, its sender as R98 names it, the descriptor it came from, the substitute
slots and marks that go with its data. -/
structure Arrival where
  pkt : Bytes
  sender : Nat
  origin : Option Origin := none
  /-- Completion marks of the data (R154): CORRUPT_SAMPLE, SUBSTITUTED. -/
  corrupt : Bool := false
  subst : Bool := false
  /-- It makes an entry of its own whatever entries hold its key: a descriptor of an ingest channel (R177). -/
  own : Bool := false
  /-- No packet but a refused descriptor behind packets of its ring: its status, DETAIL and RESULT (R153). -/
  refused : Option (Status × Nat × Nat) := none
  deriving DecidableEq, Repr, Inhabited

/-- How far a task has come. -/
inductive TaskPhase where
  /-- Slots are missing. -/
  | waiting
  /-- Complete and lane-held (R92). -/
  | held
  /-- On a ready list: its priority, and the cycle it entered that list (R89). -/
  | ready (pri since : Nat)
  /-- Delivered to the drill's queue 14, awaiting GO (R109). -/
  | offered
  /-- On its seat. -/
  | seated_
  /-- Its seat has done the work. -/
  | worked
  /-- Finished, results in the reorder buffer (R93). -/
  | finished
  deriving DecidableEq, Repr, Inhabited

/-- A result of a task: payload, length, and the marks it carries on. -/
structure Result where
  payload : Nat
  length : Nat
  corrupt : Bool := false
  subst : Bool := false
  /-- The ARG of the packet when the seat sets it itself (partial selections, lookups); otherwise the route's. -/
  arg : Option Nat := none
  /-- Only the route with this ROUTE_ID, when the work names one. -/
  only : Option Nat := none
  /-- A tag of its own, when it differs from the task's. -/
  tag : Option Tag := none
  /-- The seat whose routes it goes on, when that is not the task's (R161). -/
  from_ : Option Nat := none
  deriving DecidableEq, Repr, Inhabited

/-- What an ENCODE task appends to the batch of its tag (R40). -/
structure EncOut where
  stream : Nat
  data : Bytes
  positions : Nat
  tokens : Nat
  sequences : Nat
  corrupt : Bool
  subst : Bool
  deriving DecidableEq, Repr, Inhabited

/-- A task, from its first packet to its release. A descriptor that was refused keeps its place in its lane as a task
with no entry (R153). -/
structure Task where
  uid : Nat
  idx : Option Nat
  role : Nat := 0
  seat : Nat := 0xFFFF
  epoch : Nat := 0
  lane : Nat := 0
  tag : Tag := 0
  arg : Nat := 0
  opcount : Nat := 1
  pri : Nat := 0
  slots : Tbl Arrival := []
  phase : TaskPhase := .waiting
  /-- Dense index of the seat it was sent to. -/
  on : Nat := 0
  /-- Parameter block and routes in force when it was dispatched (R77). -/
  params : Bytes := []
  routes : List Route := []
  rob : Bool := false
  status : Status := .ok
  detail : Nat := 0
  result : Nat := 0
  /-- Sends nothing (cancelled, aborted, or the Plat switched under it: R72). -/
  mute : Bool := false
  /-- Results have been sent; fabric messages that still await their ACK (R384). -/
  released : Bool := false
  acks : List Nat := []
  enc : Option EncOut := none
  results : List Result := []
  /-- The step in which it was selected (R297). -/
  selStep : Nat := 0
  /-- A descriptor of its own, for a refused one or a compression job. -/
  origin : Option Origin := none
  deriving DecidableEq, Repr, Inhabited

/-- A quadrant scheduler (R85 to R99). -/
structure QuadSt where
  /-- Tasks in allocation order, which is lane order (R92). -/
  tasks : List Task := []
  nextUid : Nat := 0
  /-- Packets on their way to an input port, oldest first. -/
  inbound : List (Nat × Arrival) := []
  /-- Packets held at an input port (R87). -/
  held : Tbl Arrival := []
  /-- Lost-and-found entries of 64 bytes, oldest first (R98). -/
  laf : List Bytes := []
  /-- Dense index of the seat last chosen, by role (R90). -/
  lastSeat : Tbl Nat := []
  /-- Scheduler cycles beyond those the clock has given, and the cycle of the last accounting. -/
  extra : Nat := 0
  counted : Nat := 0
  deriving DecidableEq, Repr, Inhabited

/-- A seat (R17, R54, R63, R77, R90). -/
structure SeatSt where
  role : Nat := 0
  pri : Nat := 0
  epoch : Nat := 0
  /-- Index of its drill image, 0xFFFF for none. -/
  drill : Nat := 0xFFFF
  subst : Nat := 0xFFFF
  params : Bytes := []
  opened : Bool := false
  /-- Tasks sent to it: quadrant and uid, the running one first. -/
  slots : List (Nat × Nat) := []
  /-- When the running task started: timebase count and quadrant cycles. -/
  runSince : Option (Nat × Nat) := none
  lastQuad : Nat := 7
  deriving DecidableEq, Repr, Inhabited

inductive TutorMode where
  | halted | running | waiting | blocked | faulted
  deriving DecidableEq, Repr, Inhabited

/-- A loop in progress (R115): addresses of the first and the last body instruction, runs left. -/
structure Loop where
  first : Nat
  last : Nat
  left : Nat
  deriving DecidableEq, Repr, Inhabited

/-- A tutor (R104 to R115). g0 is never stored. -/
structure TutorSt where
  regs : Tbl Word := []
  pc : Word := 0
  entry : Word := 0
  /-- Drill store by word index; a word that no image wrote reads zero. -/
  drill : Tbl Word := []
  scratch : Tbl Byte := []
  events : Word := 0
  /-- Inbound queues by number; a message is eight registers. -/
  queues : Tbl (List (List Word)) := []
  loops : List Loop := []
  timer : Option Nat := none
  spent : Nat := 0
  mode : TutorMode := .halted
  fault : Nat := 0
  faultPc : Word := 0
  deriving DecidableEq, Repr, Inhabited

/-! Rings (R139 to R157) -/

/-- A descriptor fetched and not yet executed. -/
structure Fetched where
  index : Nat
  /-- Its number among all descriptors fetched. -/
  serial : Nat := 0
  /-- It was fetched while its channel diverted descriptors (R177). -/
  div : Bool := false
  /-- Its 64 bytes, or none when the host completed their read with an error. -/
  desc : Option Bytes
  deriving DecidableEq, Repr, Inhabited

/-- A ring's working state beside its registers. -/
structure RingSt where
  fetched : List Fetched := []
  /-- Descriptors fetched and not completed, by their numbers, for FENCE and IDLE (R144, R146). -/
  open_ : List Nat := []
  /-- Entries written since the last interrupt, and when the first was (R157). -/
  irqCount : Nat := 0
  irqSince : Nat := 0
  /-- RX_BUFFERs queued on a completion ring: origin, host address, capacity (R148). -/
  buffers : List (Origin × Nat × Nat) := []
  deriving DecidableEq, Repr, Inhabited

/-- A completion waiting for its completion ring (R152, R153); lane as quadrant × 1,024 + lane, none for ring 0. -/
structure Cpl where
  ring : Nat
  lane : Option Nat
  origin : Origin
  status : Status
  detail : Nat
  result : Nat
  deriving DecidableEq, Repr, Inhabited

/-- An event waiting for its event ring (R155): its bytes, all but PHASE. -/
structure EvItem where
  ring : Nat
  waits : Bool
  body : Bytes
  deriving DecidableEq, Repr, Inhabited

/-- Bytes waiting for an RX_BUFFER of a completion ring (R148): a head, a piece of memory, a tail. -/
structure Delivery where
  ring : Nat
  /-- The emit stream, when the source is one. -/
  stream : Option Nat
  status : Status
  head : Bytes := []
  addr : Nat := 0
  length : Nat := 0
  tail : Bytes := []
  deriving DecidableEq, Repr, Inhabited

/-- The host link's working state (R122, R139 to R157). -/
structure HostSt where
  rings : Tbl RingSt := []
  cpls : List Cpl := []
  events : List EvItem := []
  /-- Ring last served by descriptor fetch. -/
  lastFetch : Nat := 0
  /-- Batches and results on their way to a completion ring, oldest first (R41, R148). -/
  deliveries : List Delivery := []
  /-- Address and data words of the MSI-X table, by word; vectors masked, and pending bits, by vector. -/
  msix : Tbl Word := []
  masked : List Nat := []
  pendingIrq : List Nat := []
  /-- Size of BAR4 as a power of two, 30 to 42 (R124, R137). -/
  bar4Log : Nat := 36
  /-- An Unsupported Request has been reported and not been cleared (Advanced Error Reporting, R137). -/
  aerUr : Bool := false
  /-- Descriptors fetched so far. -/
  fetches : Nat := 0
  /-- The _HI register copied by the last _LO read, by master (R122): address and value. -/
  holdHost : Option (Nat × Word) := none
  holdCare : Option (Nat × Word) := none
  deriving DecidableEq, Repr, Inhabited

/-! Faults (R395 to R412) -/

structure FltSt where
  stage : Nat := 0
  timerRun : Bool := false
  /-- When the timer was started, in timebase cycles, and the milliseconds it runs for, read then (R412). -/
  started : Nat := 0
  limit : Nat := 0
  /-- Tags aborted while their batches have not been emitted (R408): tag. -/
  aborted : List Tag := []
  /-- A tile failed in this step: emissions end with ABORTED_STEP (R408). -/
  stepAborted : Bool := false
  deriving DecidableEq, Repr, Inhabited

/-! The Miohar fabric (R360 to R394) -/

/-- One lane of a port in training (R367 to R369): our transmitter's cursors in 1/64 steps of magnitude, the answer to the
partner's last request, frames in a row with EQ_DONE, with our width choice, and the lane test's result. -/
structure LaneSt where
  pre : Nat := 0
  post : Nat := 0
  stepAck : Nat := 0
  /-- The partner's request in force has been answered; hold ends it (R368). -/
  asked : Bool := false
  /-- Locked to the training markers (R369), and the register of the lane's PRBS31 (R367). -/
  locked : Bool := false
  prbs : Nat := 0x7FFFFFFF
  eqFrames : Nat := 0
  choiceFrames : Nat := 0
  ok : Option Bool := none
  deriving DecidableEq, Repr, Inhabited

/-- A Miohar port (R365 to R373). -/
structure PortSt where
  /-- Training state code of R366, and when it was entered. -/
  state : Nat := 0
  since : Nat := 0
  lanes : Tbl LaneSt := []
  /-- The partner's WIDTH_OFFER; width 0 none, 1 x4, 2 x8; the lane half of x4. -/
  offer : Option Nat := none
  width : Nat := 0
  half : Nat := 0
  paramRec : Bytes := []
  paramCount : Nat := 0
  /-- Partner station, port and landing slot bytes of the last ACTIVE. -/
  partner : Option (Nat × Nat × Nat) := none
  /-- Next GSEQ to send, next expected, and groups not acknowledged: GSEQ and flits. -/
  txSeq : Nat := 0
  rxSeq : Nat := 0
  retry : List (Nat × List Bytes) := []
  /-- Register of the scrambler, groups sent since the last alignment marker, and GSEQ of the next PARAM group (R362, R363, R366). -/
  scrambler : Nat := 0
  sinceMark : Nat := 0
  paramSeq : Nat := 0
  /-- An error episode is open: NAKs sent in it, and when the last was. -/
  episode : Bool := false
  naks : Nat := 0
  nakAt : Nat := 0
  /-- Flits that wait to be sent; credits left and credits owed by TC × 4 + VC (64 at the start). -/
  queue : List Bytes := []
  credits : Tbl Nat := []
  owed : Tbl Nat := []
  /-- Sends left to each TC in this round of LNK_TC_WEIGHT. -/
  turn : Tbl Nat := []
  deriving DecidableEq, Repr, Inhabited

/-- A message delivered to this station (R372, R381). -/
structure Msg where
  port : Nat
  src : Nat
  gen : Nat
  await_ : Bool
  cls : Nat
  tc : Nat
  ackReq : Bool
  id : Nat
  len : Nat
  data : Bytes
  deriving DecidableEq, Repr, Inhabited

/-- Why a message waits for an answer (R384). -/
inductive OutKind where
  /-- A result of a task: quadrant and uid. -/
  | result (q uid : Nat)
  | emission (stream : Nat)
  /-- A forwarded update sum of a SCATTER task: quadrant and uid (R304). -/
  | update (q uid : Nat)
  /-- A row read of a gather, by dense cluster (R298). -/
  | read (cluster : Nat)
  deriving DecidableEq, Repr, Inhabited

structure FabSt where
  ports : Tbl PortSt := []
  /-- The pending station table (R390). -/
  pending : Tbl Nat := []
  nextMsg : Nat := 0
  /-- Unanswered TASK and READ_REQ messages: id, why, when sent. -/
  waits : List (Nat × OutKind × Nat) := []
  /-- Flits received and not yet forwarded or delivered: port and bytes, oldest first. -/
  arrived : List (Nat × Bytes) := []
  /-- Message under way from a port and TC (port × 4 + TC): the port it leaves by, 4 for delivery here, 5 for dropped. -/
  paths : Tbl Nat := []
  /-- Sending port and TC (port × 4 + TC) taken by a message from a port and TC. -/
  locks : Tbl Nat := []
  /-- VC of the message under way on a sending port and TC (R374). -/
  outVc : Tbl Nat := []
  /-- Messages being put together, by port × 4 + TC: first flit and payload so far. -/
  partials : Tbl (Bytes × Bytes) := []
  /-- Delivered messages that wait for their own command, oldest first. -/
  inbox : List Msg := []
  /-- AWAIT messages held, and when the first of their source was (R380). -/
  heldMsgs : List Msg := []
  heldSince : Tbl Nat := []
  /-- Generation of the last fence, and the generation last released, by source. -/
  fences : Tbl Nat := []
  released : Tbl Nat := []
  /-- End of the AWAIT window by destination (R379). -/
  awaits : Tbl Nat := []
  /-- Last BELL count and last RING sequence forwarded, by origin (R385, R390). -/
  bells : Tbl Nat := []
  rings : Tbl Nat := []
  /-- Link-state database: the last RING payload of each origin; own sequence number, and when the last record was flooded (R390). -/
  ringDb : Tbl Bytes := []
  ringSeq : Nat := 0
  ringAt : Nat := 0
  /-- Shunts closed (LNK_STATUS). -/
  rowClosed : Bool := true
  colClosed : Bool := true
  deriving DecidableEq, Repr, Inhabited

/-! Joins and sequences (R231 to R242) -/

/-- A row of a join's build side: partition, key (a working value, or the bytes of a binary key), time, carried columns as
column, type and value. -/
structure JoinRow where
  part : Nat
  key : Int × Bytes
  time : Nat
  carried : List (Nat × Nat × Option Bytes)
  deriving DecidableEq, Repr, Inhabited

/-- The table of one tag, or the one table of a PERSISTENT build. -/
structure JoinTab where
  rows : List JoinRow := []
  sealed_ : Bool := false
  broken : Bool := false
  /-- Bytes of rows appended to SPILL_ALLOC. -/
  spilled : Nat := 0
  /-- Type code of the build key, once a build task has named it. -/
  keyType : Option Nat := none
  deriving DecidableEq, Repr, Inhabited

structure JoinSt where
  tabs : Tbl JoinTab := []
  /-- Column, type and width of the carried columns, once a build task has named them. -/
  shape : List (Nat × Nat × Nat) := []
  /-- Greatest tags of the build and the probe tasks that have been dispatched. -/
  built : Option Nat := none
  probed : Option Nat := none
  deriving DecidableEq, Repr, Inhabited

/-- An event of a key's history: time, arrival ordinal, carried bytes. -/
structure SeqEvent where
  time : Nat
  ord : Nat
  carried : Bytes
  deriving DecidableEq, Repr, Inhabited

/-- The histories that a STATE_ALLOC holds, by key, and the next arrival ordinal. -/
structure SeqSt where
  keys : List (Nat × List SeqEvent) := []
  next : Nat := 0
  deriving DecidableEq, Repr, Inhabited

/-! Tensor descriptors (R244 to R254) -/

/-- A tensor descriptor: one slice of a job's parent. Lists are by dimension, 0 to 4. -/
structure TDesc where
  job : Nat
  alloc : Nat
  base : Nat
  etype : Nat
  rank : Nat
  axis : Nat
  write : Bool
  scaled : Bool
  offset : Nat
  scaleOfs : Nat
  pad : Int
  size : List Nat
  stride : List Int
  origin : List Nat
  extent : List Nat
  padLo : List Nat
  padHi : List Nat
  /-- Origins and extents of the job's other slices whose valid boxes meet this slice's padded box (R252). -/
  others : List (List Nat × List Nat)
  /-- Marked dying by the descriptor of a TDESC_DESTROY; the tasks (quadrant, uid) selected before that (R254). -/
  dying : Option Origin := none
  users : List (Nat × Nat) := []
  deriving DecidableEq, Repr, Inhabited

/-! The matrix array (R272 to R286) -/

/-- An accumulator bank: the task, its sums in row order, and where its store goes (R264, R279). -/
structure MxBank where
  q : Nat
  uid : Nat
  acc : List Int
  dst : TDesc
  rowDim : Nat
  colDim : Nat
  org : List Nat
  rows : Nat
  cols : Nat
  fill : Bool
  /-- ACC_EXP and OUT_EXP. -/
  f : Int
  outExp : Int
  deriving DecidableEq, Repr, Inhabited

/-- A tile's matrix array: the bank last accumulated into, and the banks whose store has not ended, oldest first (R285). -/
structure MxSt where
  bank : Bool := false
  banks : List MxBank := []
  deriving DecidableEq, Repr, Inhabited

/-! Embeddings (R287 to R311) -/

/-- A row that a gather has asked a peer for: its message, table, window key, row, and the answer: status, late, bytes. -/
structure GthAsk where
  msg : Nat
  table : Nat
  pool : Nat
  window : Nat
  row : Nat
  answer : Option (Status × Bool × Bytes) := none
  deriving DecidableEq, Repr, Inhabited

/-- A gather in progress on an engine: its task and its reads at peers. -/
structure GthSt where
  q : Nat
  uid : Nat
  asks : List GthAsk := []
  deriving DecidableEq, Repr, Inhabited

/-- An application that is due: table, tag of the set, and the step whose bell made it due (R306). -/
structure UpdDue where
  table : Nat
  tag : Nat
  atStep : Nat
  deriving DecidableEq, Repr, Inhabited

/-- What the embedding engines keep beside memory. -/
structure EmbSt where
  /-- Gathers in progress, by dense cluster. -/
  gathers : Tbl GthSt := []
  due : List UpdDue := []
  /-- Update sets whose entries have been made free since seating, as table × 4 + set. -/
  sets : List Nat := []
  /-- Boards whose replica directory has been written since seating. -/
  boards : List Nat := []
  /-- Groups being refreshed: the rows to copy, as table and row, in order, by group (R300). -/
  refresh : Tbl (List (Nat × Nat)) := []
  /-- The step count at the last full switch, if the outgoing Plat took updates (R308). -/
  switched : Option Nat := none
  deriving DecidableEq, Repr, Inhabited

/-! Compression (R330 to R345) -/

/-- Who gave a job: a CMP_JOB's task, a DECODE task, an emit stream's batch, or the scheduler tutor. -/
inductive CmpSrc where
  | ring (uid : Nat)
  /-- A page or body of a channel's DECODE task, and how its expansion ends (R340). -/
  | decode (ch uid why : Nat)
  | encode (stream : Nat) (tag : Tag)
  | drill
  deriving DecidableEq, Repr, Inhabited

structure CmpJob where
  desc : Bytes
  src : CmpSrc
  /-- Batch step tag. -/
  tag : Nat
  deriving DecidableEq, Repr, Inhabited

/-- A pipe: its three queues, oldest first, the queue it served last (0 ring, 1 seat, 2 drill), and its job. -/
structure PipeSt where
  ring : List CmpJob := []
  seat_ : List CmpJob := []
  drill : List CmpJob := []
  last : Nat := 2
  run : Option CmpJob := none
  /-- Input and output bytes counted so far that do not make a KiB yet. -/
  inRest : Nat := 0
  outRest : Nat := 0
  deriving DecidableEq, Repr, Inhabited

/-! Table intake and the epoch cache (R159 to R180) -/

/-- A sample: its cells in column order, float values in their input form. -/
abbrev Sample := List Cell

/-- A slot of a batch in assembly: its sample, none for a voided one, and whether it is a substitute (R168, R169). -/
structure SlotFill where
  sample : Option Sample
  subst : Bool := false
  deriving DecidableEq, Repr, Inhabited

/-- A batch whose slots are being filled, in its batch slot (R161). -/
structure OpenBatch where
  slot : Nat
  tag : Nat
  fills : List SlotFill := []
  /-- The seat that filled its last slot. -/
  seat : Nat := 0
  deriving DecidableEq, Repr, Inhabited

/-- The row group of a Parquet channel: rows in all, rows placed, per column the cells that wait (`none` failed), the columns a
page of which has failed, and each column's dictionary (R164, R167). -/
structure RowGroup where
  rows : Nat
  placed : Nat := 0
  waiting : Tbl (List (Option Cell)) := []
  failed : List Nat := []
  dicts : Tbl (List Bytes) := []
  deriving DecidableEq, Repr, Inhabited

/-- A replay batch of a window: its term, slot, bytes and tag, its marks, how many samples of the term it holds, and whether it
is the term's last (R174). -/
structure WinBatch where
  term : Nat
  slot : Nat
  length : Nat
  tag : Tag
  corrupt : Bool
  subst : Bool
  samples : Nat
  last : Bool
  deriving DecidableEq, Repr, Inhabited

/-- An assist ticket that waits for its result: ticket, number of its diverted descriptor among all fetched, bells since the
event (R177, R178). -/
structure Ticket where
  ticket : Nat
  serial : Nat
  bells : Nat := 0
  deriving DecidableEq, Repr, Inhabited

/-- A DECODE task under way: its uid, the slots it has yet to fill, its status, and batches it has closed. -/
structure IchWork where
  uid : Nat
  items : List (Option Sample)
  status : Status
  results : List Result := []
  /-- Expansions that have yet to enter the expansion pipe's seat queue, by how they end (0 OK, 1 FORMAT, 2 DECLARED_SIZE), and
  how many are in the pipe (R330, R340). -/
  toExpand : List Nat := []
  inPipe : Nat := 0
  deriving DecidableEq, Repr, Inhabited

/-- An ingest channel. -/
structure IchSt where
  /-- Parameter block and quadrant of its DECODE seats; no bytes while the channel is unused. -/
  params : Bytes := []
  quad : Nat := 0
  /-- Arrow: the fields of the schema in force, none before a Schema message; dictionaries by ID (R163). -/
  schema : Option (List ArrowField) := none
  dicts : Tbl (List Bytes) := []
  resync : Bool := false
  openB : Option OpenBatch := none
  work : Option IchWork := none
  group : Option RowGroup := none
  /-- Standby pool (R169): entries written, valid samples and substitutions so far. -/
  pool : Tbl Sample := []
  valids : Nat := 0
  substs : Nat := 0
  /-- Cached samples, each with its address in the log and its length there, and the bytes of the log used (R171). -/
  cached : List (Sample × Nat × Nat) := []
  logEnd : Nat := 0
  sealed_ : Bool := false
  /-- Descriptors of a lower number had been fetched when the cache was sealed: they are still decoded (R175). -/
  sealAt : Nat := 0
  term : Nat := 0
  pos : Nat := 0
  front : List WinBatch := []
  back : List WinBatch := []
  armed : Bool := false
  /-- A TERM_ADVANCE waits for the next bell. -/
  advance : Bool := false
  termDone : Bool := false
  diverting : Bool := false
  nextTicket : Nat := 0
  tickets : List Ticket := []
  deriving DecidableEq, Repr, Inhabited

/-! Ethernet ports, streams, queue pairs, lookups (R181 to R207) -/

/-- A record in an alignment buffer or a spill ring: its order key and its bytes (R192). -/
structure StrRec where
  time : Nat
  key : Nat
  sid : Nat
  port : Nat
  seq : Nat
  idx : Nat
  /-- Stream entry. -/
  entry : Nat
  data : Bytes
  deriving DecidableEq, Repr, Inhabited

/-- A stream entry's working state beside its registers (R186 to R188). -/
structure StrSt where
  valid : Bool := false
  /-- A frame has been accepted since the entry became valid. -/
  seen : Bool := false
  /-- SEQ of the first frame accepted. -/
  first : Nat := 0
  /-- Bit i: the frame HIGH_SEQ − i was accepted. -/
  map : Nat := 0
  idle : Bool := true
  /-- Bells since a frame was last accepted. -/
  quiet : Nat := 0
  deriving DecidableEq, Repr, Inhabited

/-- A closed block (R193): number, tag, W_g at close, KOI flag, records in order. -/
structure ClosedBlock where
  k : Nat
  tag : Nat
  wm : Nat
  koi : Bool
  recs : List StrRec
  deriving DecidableEq, Repr, Inhabited

/-- An alignment group (R187 to R198). -/
structure GrpSt where
  on : Bool := false
  /-- The lowest block not yet closed, and whether fall-back has been active since the blocks now open are open. -/
  block : Nat := 0
  blockKoi : Bool := false
  /-- A closed block that waits for a slot (R193). -/
  closed : Option ClosedBlock := none
  buf : List StrRec := []
  spill : List StrRec := []
  koi : Bool := false
  /-- Bits set in the live and the active half of the filter (R197). -/
  live : List Nat := []
  active : List Nat := []
  pfc : Bool := false
  deriving DecidableEq, Repr, Inhabited

/-- A queue pair's message in progress (R199 to R201). -/
structure QpSt where
  /-- Where the message began, its bytes so far, and whether it is a SEND. -/
  msg : Option (Nat × Nat × Bool) := none
  /-- A NAK for the present gap has been sent. -/
  gap : Bool := false
  cnpAt : Option Nat := none
  deriving DecidableEq, Repr, Inhabited

/-- A lookup request slot (R203 to R206). -/
structure LkSlot where
  /-- The way its answer goes. -/
  way : EthWay
  id : Nat
  fs : Nat
  /-- RESULT_BYTES of the feature set at admission. -/
  rb : Nat
  keys : Bytes
  step : Nat
  since : Nat
  statsTag : Nat := 0
  deriving DecidableEq, Repr, Inhabited

/-- An Ethernet port. -/
structure EthSt where
  media : Nat := 0
  /-- The port has failed its self-test at boot (R407). -/
  failed : Bool := false
  up : Bool := false
  /-- Frames classified to a row that has a command of its own, oldest first: row of R183 and frame. -/
  rx : List (Nat × EthFrame) := []
  /-- Priorities on which a received pause is in force. -/
  paused : List Nat := []
  /-- When the last pause sent on a priority runs out (R196, R207). -/
  pausing : Tbl Nat := []
  /-- Frames that wait to be sent: priority and frame. -/
  tx : List (Nat × Sent) := []
  /-- Request slots in use. -/
  slots : Tbl LkSlot := []
  /-- Slots freed by LATE whose results have yet to arrive. -/
  late : List Nat := []
  deriving DecidableEq, Repr, Inhabited

/-- Everything of the block but the caretaker's own state. -/
structure Dev where
  /-- Timebase count (R22). -/
  now : Nat := 0
  /-- Quadrant-core cycles, in 64ths (R20, R433). -/
  qcyc64 : Nat := 0
  /-- The model's own counter of free values (log entry 1). -/
  free : Nat := 0
  sent : List Sent := []
  regs : Tbl Word := []
  mem : Memory := {}
  /-- DRAM lines with errors: 1 one device, 2 more than one, 3 poisoned (R347, R356). -/
  lines : Tbl Nat := []
  pht : Pht := {}
  emits : Tbl EmitSt := []
  fb : Fb := {}
  att : Att := {}
  plt : PltSt := {}
  quads : Tbl QuadSt := []
  seats : Tbl SeatSt := []
  tutors : Tbl TutorSt := []
  host : HostSt := {}
  flt : FltSt := {}
  fab : FabSt := {}
  /-- Joins by JOIN_ID; sequences by STATE_ALLOC. -/
  joins : Tbl JoinSt := []
  seqs : Tbl SeqSt := []
  /-- Tensor descriptors and generations by slot; the next job's number. -/
  tds : Tbl TDesc := []
  tdGen : Tbl Nat := []
  tdJob : Nat := 0
  /-- Matrix arrays by tile; pipes by quadrant × 2 + 1 for packing. -/
  mx : Tbl MxSt := []
  emb : EmbSt := {}
  pipes : Tbl PipeSt := []
  ichs : Tbl IchSt := []
  /-- Epoch caches that stand in DRAM with no channel seated on them, by ALLOC_ID: per sample its cells, address in the log and
  length, and the bytes of the log used (R171, R176). -/
  caches : Tbl (List (Sample × Nat × Nat) × Nat) := []
  eths : Tbl EthSt := []
  strs : Tbl StrSt := []
  grps : Tbl GrpSt := []
  qps : Tbl QpSt := []
  /-- End of the pulse in progress, by pin (R453). -/
  pulses : Tbl Nat := []
  /-- Level of ALIVE (R406). -/
  alive : Bool := false
  deriving DecidableEq, Repr, Inhabited

/-! The caretaker and the security block (R413 to R434) -/

/-- The power stage (R413). -/
inductive Power where
  /-- Input below 37.0 V, or the stage has stopped. -/
  | off
  /-- Started; the flag tells that this is the second try. -/
  | starting (second : Bool)
  /-- The 1 s wait before the second try. -/
  | waiting
  | good
  /-- Failed twice; off until the input falls. -/
  | failed
  deriving DecidableEq, Repr, Inhabited

/-- An owner key slot (R421, R423): fused. -/
structure OwnerKey where
  key : Bytes
  revoked : Bool
  deriving DecidableEq, Repr, Inhabited

/-- A mailbox (R428, R434). -/
structure MboxSt where
  cmd : Word := 0
  addrLo : Word := 0
  addrHi : Word := 0
  len : Word := 0
  arg : Word := 0
  busy : Bool := false
  status : Nat := 0
  detail : Nat := 0
  result : Nat := 0
  deriving DecidableEq, Repr, Inhabited

/-- The least firmware image of R424: a header, no body, and a signature block with selector 0, r = 1 and s = 1. -/
def leastImage : Bytes :=
  leB 4 0x4B544346 ++ leB 2 1 ++ zeros 2 ++ leB 4 192 ++ zeros 52
    ++ zeros 16 ++ zeros 47 ++ leB 1 1 ++ zeros 47 ++ leB 1 1 ++ zeros 16

/-- What fuses and the caretaker's flash hold: it outlives every reset (R414). -/
structure Kept where
  ownerSet : Bool := false
  owners : Tbl OwnerKey := []
  minSvn : Nat := 0
  raises : Nat := 0
  serial : BitVec 64 := 0
  slot0 : Bytes := leastImage
  slot1 : Bytes := []
  active : Fin 2 := 0
  /-- The slot that is not active is marked pending (R425). -/
  pending : Bool := false
  /-- The fallback record (R425). -/
  fellBack : Bool := false
  /-- The three certificates, one after the other, and the first alone (R426). -/
  certs : Bytes := []
  cert1 : Bytes := []
  /-- The configuration store: 64 bytes (R428). -/
  config : Bytes := zeros 64
  deriving DecidableEq, Repr, Inhabited

/-- The caretaker's and the security block's state that a module reset resets (R414, R432 to R435). -/
structure CareRun where
  /-- CTK_BOOT: STAGE and FAIL; the halted state; the slot tried or running, and whether the other has been tried. -/
  stage : Nat := 0
  fail : Nat := 0
  halted : Bool := false
  slot : Fin 2 := 0
  triedOther : Bool := false
  /-- The work of stage 5 is done; stage 6 waits for PERST# (R418). -/
  linksDone : Bool := false
  /-- The pending slot is tried or runs in this boot. -/
  onPending : Bool := false
  fwFallback : Bool := false
  svn : Nat := 0
  selftestOk : Bool := false
  sigFail : Nat := 0
  lastSel : Nat := 0
  mbCollide : Bool := false
  pcapUnmet : Bool := false
  badWrite : Bool := false
  /-- CTK_CLK: S in force, S_T, S_P, FLOOR; when S_T and S_P last changed. -/
  s : Nat := 0
  sT : Nat := 0
  sP : Nat := 0
  floor : Nat := 0
  sTAt : Option Nat := none
  sPAt : Option Nat := none
  therm : Nat := 0x5F5A
  pcap : Nat := 0
  mbHost : MboxSt := {}
  mbI3c : MboxSt := {}
  /-- Telemetry registers by CTK offset. -/
  tel : Tbl Word := []
  telSeq : Nat := 0
  deriving DecidableEq, Repr, Inhabited

structure Care where
  power : Power := .good
  /-- MOD_RESET# is low; PERST# is low. -/
  resetLow : Bool := false
  perstLow : Bool := true
  kept : Kept := {}
  /-- CTK_BOOT_CNT: kept at a module reset. -/
  bootCnt : Nat := 0
  run : CareRun := {}
  deriving DecidableEq, Repr, Inhabited

/-- The whole block: its queue of commands, the caretaker, and the rest. -/
structure State where
  pending : List Instr
  care : Care
  dev : Dev
  deriving DecidableEq, Repr, Inhabited

/-- The machine right after a power-on reset, with power good and MOD_RESET# high: boot has begun at stage 2 (R414, R417). -/
def State.reset : State := { pending := [], care := { run := { stage := 2 } }, dev := {} }

end Sys2Proof.Machine
end

