-- ==== Sys2Proof/Machine/RegMap.lean ====
section
/-! DEFINITION. The register map (R116 to R119, R131): for every register its reset value, the classes of its bits (R5),
and where its block is enabled and records a refused write (R126). Registers are named by device address. -/
namespace Sys2Proof.Machine

/-- Global register blocks (R119). -/
def GLB : Nat := 0x7F0000000000
def PHT : Nat := 0x7F0000010000
def TTB : Nat := 0x7F0000020000
def PLT : Nat := 0x7F0000030000
def FLT : Nat := 0x7F0000040000
def SEC : Nat := 0x7F0000050000
def CTK : Nat := 0x7F0000060000
def MEM : Nat := 0x7F0000080000
def LNK : Nat := 0x7F00000C0000
def ETH : Nat := 0x7F0000100000
def ATT : Nat := 0x7F0000140000
def RNG : Nat := 0x7F0000200000
def FLD : Nat := 0x7F0000400000
/-- Windows of units (R116). -/
def TILW : Nat := 0x7F0100000000
def CLUW : Nat := 0x7F0200000000
def QDRW : Nat := 0x7F0300000000
def PRTW : Nat := 0x7F0400000000
def SLATE : Nat := 0x400000000000
def BOARD : Nat := 0x410000000000

/-- Tile ID of a dense tile index (R12, R15). -/
def tileId (t : Nat) : Nat := let c := t / 16; (c / 9) * 256 + (c % 9) * 16 + t % 16
/-- Cluster ID of a dense cluster index (R13, R15). -/
def clusterId (c : Nat) : Nat := (c / 9) * 16 + c % 9
/-- Whether a tile ID names a tile (R14). -/
def tileOk (id : Nat) : Bool := id < 2048 && bits id 7 4 ≤ 8
/-- Whether a cluster ID names a cluster (R14). -/
def clusterOk (id : Nat) : Bool := id < 128 && bits id 3 0 ≤ 8
/-- Dense tile index of a tile ID (R15). -/
def denseTile (id : Nat) : Nat := (bits id 10 8 * 9 + bits id 7 4) * 16 + bits id 3 0
/-- Dense cluster index of a cluster ID (R15). -/
def denseCluster (id : Nat) : Nat := bits id 6 4 * 9 + bits id 3 0

/-- Register windows by dense index. -/
def tilReg (t off : Nat) : Nat := TILW + tileId t * 0x1000 + off
def cluReg (c off : Nat) : Nat := CLUW + clusterId c * 0x1000 + off
def qdrReg (q off : Nat) : Nat := QDRW + q * 0x1000 + off
def prtReg (p off : Nat) : Nat := PRTW + p * 0x1000 + off
def rngReg (n off : Nat) : Nat := RNG + 0x100000 + n * 0x40 + off
def ttbEnt (n off : Nat) : Nat := TTB + 0x1000 + n * 32 + off

/-- Classes of a register's bits (R5): masks of held, live, write-1-to-clear and write-only bits; the other bits are RO.
`en` is the register and bit that enables the owner of the held fields, `ref` its WRITE_REFUSED bit (R126). -/
structure RegSpec where
  reset : Nat := 0
  h : Nat := 0
  l : Nat := 0
  c : Nat := 0
  o : Nat := 0
  en : Option (Nat × Nat) := none
  ref : Option (Nat × Nat) := none
  deriving DecidableEq, Repr, Inhabited

/-- All 32 bits. -/
def m32 : Nat := 0xFFFFFFFF

/-- PHT block (R48). -/
def specPht (o : Nat) : RegSpec :=
  let own : RegSpec := { en := some (PHT, 31), ref := some (PHT + 8, 31) }
  if o = 0 then { own with reset := 0x02443400, h := 0x0FFFFC00, l := 0x80000000 }
  else if o = 4 then { own with reset := 9, h := 0x07FF010F }
  else if o = 8 then { c := 0x8000007C }
  else if o = 0xC then { own with reset := 0x1F40, h := m32 }
  else if o = 0x10 then { own with reset := 0xFA0, h := m32 }
  else if o = 0x14 then { own with reset := 4, h := 0xFFFF }
  else if o = 0x20 ∨ o = 0x30 then { own with h := m32 }
  else if o = 0x24 ∨ o = 0x34 then { own with h := 0xFFFF }
  else if o = 0x40 then { o := m32 }
  else {}

/-- TTB block (R31, R34, R48). -/
def specTtb (o : Nat) : RegSpec :=
  if o = 0 then { l := 0x80000000 }
  else if o = 4 then { c := 0x80000003 }
  else if 0x1000 ≤ o ∧ o < 0x3000 then
    if o % 32 = 0 ∨ o % 32 = 8 then { l := m32 }
    else if o % 32 = 4 then { l := 0xC0FFFF00, c := 0x30000000 } else {}
  else if 0x3000 ≤ o ∧ o < 0x3100 then
    { reset := 0x02000000, h := 0xC7000000, en := some (TTB, 31), ref := some (TTB + 4, 31) }
  else {}

/-- PLT block (R83). -/
def specPlt (o : Nat) : RegSpec :=
  if o = 0 then { reset := 2, l := 6 } else if o = 4 then { c := 0xF0 } else {}

/-- Whether a fault source is assigned (R396). -/
def fltAssigned (s : Nat) : Bool :=
  s ≤ 13 || (16 ≤ s && s ≤ 33) || (40 ≤ s && s ≤ 52) || (56 ≤ s && s ≤ 59) || (64 ≤ s && s ≤ 101) || (128 ≤ s && s ≤ 487)

/-- Reset level of a fault source (R396). -/
def fltResetLevel (s : Nat) : Nat :=
  if !fltAssigned s then 0
  else if s ≤ 2 then 3
  else if s = 3 ∨ (44 ≤ s ∧ s ≤ 47) ∨ s = 52 ∨ s = 58 ∨ s = 59 then 0
  else if s = 4 ∨ s = 5 ∨ s = 8 ∨ (80 ≤ s ∧ s ≤ 95) ∨ (272 ≤ s ∧ s ≤ 343) ∨ 416 ≤ s then 2
  else 1

/-- Sum of 2-bit fields over the 16 sources of one FLT_LEVEL register. -/
def fltFields (f : Nat → Nat) (i : Nat) : Nat :=
  (List.range 16).foldl (fun a j => a + f (16 * i + j) * 4 ^ j) 0

/-- FLT block (R397, R412). -/
def specFlt (o : Nat) : RegSpec :=
  if o = 0 then { reset := 0x40000002, l := 0x40003FFF, o := 0x80000000 }
  else if o = 8 then { reset := 0x3E8, l := 0x3FFF }
  else if o = 0xC then { reset := 0x80000000, l := 0x800007FF }
  else if o = 0x14 then { o := m32 }
  else if 0x100 ≤ o ∧ o < 0x140 then { c := m32 }
  else if 0x200 ≤ o ∧ o < 0x280 then
    { reset := fltFields fltResetLevel ((o - 0x200) / 4),
      l := fltFields (fun s => if fltAssigned s && s > 2 then 3 else 0) ((o - 0x200) / 4) }
  else {}

/-- RNG block (R144). -/
def specRng (o : Nat) : RegSpec :=
  if o < 0x100000 then {}
  else
    let n := (o - 0x100000) / 0x40
    let own : RegSpec := { en := some (rngReg n 0, 31), ref := some (rngReg n 4, 31) }
    let r := o % 0x40
    if r = 0 then
      { own with reset := 0x04000000 + (if n ≤ 2 then n * 0x20000000 else 0),
                 h := 0x1F0007FF + (if n ≤ 2 then 0 else 0x60000000), l := 0x80800000 }
    else if r = 4 then { reset := 1, c := 0x8000003E }
    else if r = 8 ∨ r = 0xC then { own with h := m32 }
    else if r = 0x18 then { reset := 1, l := m32 }
    else {}

/-- Tutor registers, by the address of the tutor's register block (R111). The spec gives no WRITE_REFUSED bit here. -/
def specTut (base r : Nat) : RegSpec :=
  if r = 0 then { l := 1, o := 2 }
  else if r = 0xC then { reset := 0x100, h := 0xFFFF, en := some (base, 0) }
  else {}

/-- QDR block of quadrant q (R103). -/
def specQdr (q o : Nat) : RegSpec :=
  let own : RegSpec := { en := some (qdrReg q 0, 0), ref := some (qdrReg q 4, 15) }
  if o = 0 then { own with l := 1, h := 6 }
  else if o = 4 then { c := 0x8006 }
  else if o = 8 then { own with reset := 0x100, h := 0x1FFF }
  else if o = 0xC then { own with reset := 0x100, h := 0xFFFF }
  else if o = 0x10 then { own with h := 0x3FFF }
  else if 0xC0 ≤ o ∧ o < 0xE0 then specTut (qdrReg q 0xC0) (o - 0xC0)
  else if o = 0x800 then { l := 1 }
  else if o = 0x804 then { c := 0x8004 }
  else if o = 0x808 then { reset := 0x400, h := 0xFFFF, en := some (qdrReg q 0x800, 0), ref := some (qdrReg q 0x804, 15) }
  else if o = 0x82C ∨ o = 0x8C0 then { o := 1 }
  else if 0x840 ≤ o ∧ o < 0x8C0 then { l := 0xFFFF }
  else {}

/-- LNK block (R392). -/
def specLnk (o : Nat) : RegSpec :=
  let own : RegSpec := { en := some (LNK, 31), ref := some (LNK + 4, 31) }
  if o = 0 then { l := 0xE0000000 }
  else if o = 4 then { c := 0x80000004 }
  else if o = 8 then { own with h := 0x7FF }
  else if o = 0xC then { own with reset := 0x101, h := 0xFF3F }
  else if o = 0x10 then { own with h := m32 }
  else if o = 0x18 then { own with reset := 0x0C35009C, h := m32 }
  else if o = 0x1C then { reset := 0x01010101, l := m32 }
  else if o = 0x20 then { own with h := m32 }
  else if o = 0x24 then { own with reset := 0x10000, h := m32 }
  else {}

/-- Miohar port window p (R393). -/
def specLnkPort (p o : Nat) : RegSpec :=
  let own : RegSpec := { en := some (prtReg p 0, 0), ref := some (prtReg p 4, 15) }
  if o = 0 then { own with reset := 0x800, h := 0xFF04, l := 1, o := 2 }
  else if o = 4 then { c := 0xE000 }
  else if o = 0x100 then { l := 0x7FF }
  else if o = 0x104 then { o := 0xFFFF }
  else if o = 0x108 then { o := 1 }
  else if 0xC0 ≤ o ∧ o < 0xE0 then specTut (prtReg p 0xC0) (o - 0xC0)
  else {}

/-- Pin registers (R454), by offset from GLB. -/
def specPin (o : Nat) : RegSpec :=
  if o = 0x104 then { c := 2 }
  else if 0x108 ≤ o ∧ o < 0x11C then { c := 0x80000000, l := if o = 0x108 then 0x107 else 0x307 }
  else {}

/-- Channel c's registers (R180), by offset in its 0x100. -/
def specIch (c o : Nat) : RegSpec :=
  let b := MEM + 0x30000 + c * 0x100
  let own : RegSpec := { en := some (b, 31), ref := some (b + 4, 31) }
  if o = 0 then { own with h := 0x39000000, l := 0x86000000 }
  else if o = 4 then { c := 0x800000C0 }
  else if o = 8 ∨ o = 0x24 ∨ o = 0x28 then { own with h := m32 }
  else if o = 0xC then { own with h := 0xFFFF }
  else if o = 0x2C then { own with reset := 0x400010, h := m32 }
  else if o = 0x30 then { own with reset := 4, h := 0x3FFF00FF }
  else if o = 0x54 then { o := 3 }
  else {}

/-- Address of the registers of an Ethernet port, a stream entry, a group, a feature set, a queue pair (R207). -/
def ethReg (n off : Nat) : Nat := ETH + 0x1000 + n * 0x1000 + off
def strReg (s off : Nat) : Nat := ETH + 0x8000 + s * 0x40 + off
def grpReg (g off : Nat) : Nat := ETH + 0x20000 + g * 0x100 + off
def fsReg (f off : Nat) : Nat := ETH + 0x21000 + f * 0x20 + off
def qpReg (q off : Nat) : Nat := ETH + 0x30000 + q * 0x40 + off

/-- ETH block (R207). The refusals of streams and queue pairs go to the port that their CTL names. -/
def specEth (o : Nat) : RegSpec :=
  if 0x1000 ≤ o ∧ o < 0x3000 then
    let n := o / 0x1000 - 1
    let r := o % 0x1000
    let own : RegSpec := { en := some (ethReg n 0, 31), ref := some (ethReg n 4, 31) }
    if r = 0 then { own with reset := 0x00FF0000, h := 0x7EFF0000, l := 0x80000000 }
    else if r = 4 then { c := 0x80000001 }
    else if r = 0xC then { own with h := 0xFFFF }
    else if r = 0x24 then { own with reset := 0x5A495A48, h := m32 }
    else if r = 0x28 then { own with reset := 0x4E20, h := 0xF80FFFFF }
    else if r = 0x30 then { own with reset := 0x320, h := 0xFFFF }
    else if r = 8 ∨ (0x10 ≤ r ∧ r ≤ 0x20) ∨ r = 0x2C then { own with h := m32 }
    else {}
  else if 0x8000 ≤ o ∧ o < 0x18000 then
    let s := (o - 0x8000) / 0x40
    let r := o % 0x40
    let own : RegSpec := { en := some (strReg s 0, 31), ref := some (ethReg 0 4, 31) }
    if r = 0 then { own with h := 0x6F00FFFF, l := 0x80000000 }
    else if r = 4 then { own with h := 0x1FFF }
    else if r = 8 ∨ r = 0xC then { own with h := m32 }
    else {}
  else if 0x20000 ≤ o ∧ o < 0x21000 then
    let g := (o - 0x20000) / 0x100
    let r := o % 0x100
    let own : RegSpec := { en := some (grpReg g 0, 31), ref := some (grpReg g 4, 31) }
    if r = 0 then { own with h := 0x7FF00000, l := 0x80000000 }
    else if r = 4 then { c := 0x80000002 }
    else if r = 0x24 then { own with h := 0xFFFF }
    else if r = 0x3C then { own with reset := 0x14, h := 0x3F }
    else if r = 0x40 then { own with h := 0x1FFFF8FF }
    else if r = 0x50 then { own with reset := 0x01000000, h := 0xFFFF3FFF }
    else if r = 0x54 then { own with reset := 4, h := 0xFFFF }
    else if 8 ≤ r ∧ r < 0x50 then { own with h := m32 }
    else {}
  else if 0x21000 ≤ o ∧ o < 0x21800 then
    let r := o % 0x20
    if r = 0 then { l := 0x8000FFFF } else if r = 4 then { l := 0x1FFFF8FF } else if r = 8 then { l := 0xFFFFE000 } else {}
  else if 0x30000 ≤ o ∧ o < 0x38000 then
    let q := (o - 0x30000) / 0x40
    let r := o % 0x40
    let own : RegSpec := { en := some (qpReg q 0, 31), ref := some (ethReg 0 4, 31) }
    if r = 0 then { own with h := 0x40FFFFFF, l := 0x80000000 }
    else if r = 4 then { own with h := 0xFFFFFF }
    else if r = 0x14 ∨ r = 0x20 then { own with h := 0xFFFF }
    else if r = 0x18 then { own with h := 0x1FFFF8FF }
    else if 8 ≤ r ∧ r < 0x20 then { own with h := m32 }
    else {}
  else {}

/-- Ethernet port window p, 4 or 5 (R207). -/
def specEthPort (p o : Nat) : RegSpec :=
  if o = 0x40 then { l := 0xF000 }
  else if 0xC0 ≤ o ∧ o < 0xE0 then specTut (prtReg p 0xC0) (o - 0xC0)
  else {}

/-- MEM block (R359). -/
def specMem (o : Nat) : RegSpec :=
  if o = 8 then { c := 6 }
  else if o = 0xC then { reset := 0x18, l := 0xFFFF }
  else if o = 0x10 then { reset := 0x1000, l := m32 }
  else if o = 0x20 then { o := 1 }
  else if 0x10000 ≤ o ∧ o < 0x20000 then (if o % 0x1000 = 4 then { reset := 1, l := 0x301 } else {})
  else if o = 0x31018 then { o := 1 }
  else if 0x30000 ≤ o ∧ o < 0x31000 then specIch ((o - 0x30000) / 0x100) (o % 0x100)
  else {}


/-- GLB block (R133). -/
def specGlb (o : Nat) : RegSpec :=
  if o = 0 then { reset := 0x7741A100 }
  else if o = 4 then { c := 0xF }
  else if o = 8 then { l := 0x1F }
  else if o = 0x10 then { l := m32 }
  else if o = 0x14 then { l := 0xFFFF }
  else if o = 0x18 then { l := m32 }
  else if o = 0x1C then { reset := 0x4000, l := m32 }
  else if 0x100 ≤ o ∧ o < 0x120 then specPin o
  else {}

/-- The tile block (R134, R118). -/
def specTil (t o : Nat) : RegSpec :=
  if o = 0 then { reset := t * 0x10000 + tileId t }
  else if o = 8 then { o := 3 }
  else if o = 0x58 ∨ o = 0x60 ∨ o = 0xA0 then { o := 1 }
  else if 0xC0 ≤ o ∧ o < 0xE0 then specTut (tilReg t 0xC0) (o - 0xC0)
  else {}

/-- The cluster window (R135, R136). -/
def specClu (c o : Nat) : RegSpec :=
  if o = 0 then { reset := c * 0x10000 + clusterId c }
  else if o = 8 then { o := 1 }
  else if o = 0x804 then { o := 1 }
  else if 0x4C0 ≤ o ∧ o < 0x4E0 then specTut (cluReg c 0x4C0) (o - 0x4C0)
  else if o = 0x400 then { reset := 1, l := 1, o := 2 }
  else {}

/-- The register at a canonical device address (4-byte aligned). -/
def specOf (a : Nat) : RegSpec :=
  if a < GLB then {}
  else if a < GLB + 0x10000 then specGlb (a - GLB)
  else if a < TTB then specPht (a - PHT)
  else if a < PLT then specTtb (a - TTB)
  else if a < FLT then specPlt (a - PLT)
  else if a < SEC then specFlt (a - FLT)
  else if a < CTK then {}
  else if a < MEM then {}
  else if a < LNK then specMem (a - MEM)
  else if a < ETH then specLnk (a - LNK)
  else if a < ATT then specEth (a - ETH)
  else if a < GLB + 0x180000 then (if a = ATT + 0x20 then { o := m32 } else {})
  else if a < RNG then {}
  else if a < FLD then specRng (a - RNG)
  else if a < TILW then {}
  else if a < CLUW then specTil (denseTile ((a - TILW) / 0x1000)) (a % 0x1000)
  else if a < QDRW then specClu (denseCluster ((a - CLUW) / 0x1000)) (a % 0x1000)
  else if a < PRTW then specQdr ((a - QDRW) / 0x1000) (a % 0x1000)
  else if a < PRTW + 0x4000 then specLnkPort ((a - PRTW) / 0x1000) (a % 0x1000)
  else if a < PRTW + 0x6000 then specEthPort ((a - PRTW) / 0x1000) (a % 0x1000)
  else {}

/-- Whether an address lies in a window of masked registers (R128). -/
def isMasked (a : Nat) : Bool := TILW ≤ a && a < PRTW + 0x8000

/-- The cluster that a cluster field decodes to (R131). -/
def foldCluster (c : Nat) : Nat := if c = 8 then 8 else c % 8

/-- Partial decoding (R131): the canonical address that an address of a register window, a slate window or a board window
reaches. -/
def canon (a : Nat) : Nat :=
  if SLATE ≤ a ∧ a < SLATE + 0x80000000 then
    let id := (a - SLATE) / 0x100000
    let off := (a - SLATE) % 0x80000
    SLATE + (bits id 10 8 * 256 + foldCluster (bits id 7 4) * 16 + bits id 3 0) * 0x100000 + off
  else if BOARD ≤ a ∧ a < BOARD + 0x40000000 then
    let id := (a - BOARD) / 0x800000
    let off := (a - BOARD) % 0x800000
    BOARD + (bits id 6 4 * 16 + foldCluster (bits id 3 0)) * 0x800000 + (if off ≥ 0x600000 then off - 0x400000 else off)
  else if TILW ≤ a ∧ a < TILW + 0x800000 then
    let id := (a - TILW) / 0x1000
    TILW + (bits id 10 8 * 256 + foldCluster (bits id 7 4) * 16 + bits id 3 0) * 0x1000 + a % 0x100
  else if CLUW ≤ a ∧ a < CLUW + 0x80000 then
    let id := (a - CLUW) / 0x1000
    CLUW + (bits id 6 4 * 16 + foldCluster (bits id 3 0)) * 0x1000 + a % 0x1000
  else if PRTW ≤ a ∧ a < PRTW + 0x8000 then
    let p := (a - PRTW) / 0x1000
    PRTW + (if p ≥ 6 then p - 2 else p) * 0x1000 + a % 0x1000
  else a

/-- Whether an address lies in a register window of R116 (the single-bit window apart). -/
def isReg (a : Nat) : Bool :=
  (GLB ≤ a && a < GLB + 0x1000000) || (TILW ≤ a && a < TILW + 0x800000) || (CLUW ≤ a && a < CLUW + 0x80000)
  || (QDRW ≤ a && a < QDRW + 0x8000) || (PRTW ≤ a && a < PRTW + 0x8000)

end Sys2Proof.Machine
end

