-- ==== Sys2Proof/Machine/Ops.lean ====
section
/-! DEFINITION. The named operations over registers, memory, tables of units and what is sent outside. Every meaning goes
through them. -/
namespace Sys2Proof.Machine

/-! Registers -/

/-- The stored value of a register: what was last written, or its reset value. -/
def Dev.rr (d : Dev) (a : Nat) : Word := (tfind d.regs a).getD (BitVec.ofNat 32 (specOf a).reset)

/-- The stored value as a number. -/
def Dev.rn (d : Dev) (a : Nat) : Nat := (d.rr a).toNat

/-- Store a register (by hardware). -/
def Dev.wr (d : Dev) (a : Nat) (w : Word) : Dev := { d with regs := tput d.regs a w }

/-- Store a number in a register, modulo 2^32. -/
def Dev.wn (d : Dev) (a : Nat) (n : Nat) : Dev := d.wr a (BitVec.ofNat 32 n)

/-- A bit of a register. -/
def Dev.rbit (d : Dev) (a i : Nat) : Bool := (d.rr a).getLsbD i

/-- A field of a register. -/
def Dev.rf (d : Dev) (a hi lo : Nat) : Nat := bits (d.rn a) hi lo

/-- Set or clear one bit of a register. -/
def Dev.wbit (d : Dev) (a i : Nat) (b : Bool) : Dev :=
  let m : Word := 1#32 <<< i
  d.wr a (if b then d.rr a ||| m else d.rr a &&& ~~~m)

/-- Replace a field of a register. -/
def Dev.wf (d : Dev) (a hi lo v : Nat) : Dev :=
  let m : Word := BitVec.ofNat 32 ((2 ^ (hi + 1 - lo) - 1) * 2 ^ lo)
  d.wr a ((d.rr a &&& ~~~m) ||| (BitVec.ofNat 32 (v * 2 ^ lo) &&& m))

/-- Add to a saturating 32-bit counter (R100, R134). -/
def Dev.bump (d : Dev) (a : Nat) (n : Nat := 1) : Dev := d.wn a (sat32 (d.rn a) n)

/-- A 64-bit value over a _LO and _HI pair. -/
def Dev.rn2 (d : Dev) (a : Nat) : Nat := d.rn a + d.rn (a + 4) * 2 ^ 32

def Dev.wn2 (d : Dev) (a : Nat) (n : Nat) : Dev := (d.wn a n).wn (a + 4) (n / 2 ^ 32)

/-- Zero a run of registers of 4 bytes each. -/
def Dev.zeroRegs (d : Dev) (a : Nat) : Nat → Dev
  | 0 => d
  | n + 1 => (d.wn a 0).zeroRegs (a + 4) n

/-! Free values and what goes outside -/

/-- Draw a free number (log entry 1). -/
def Dev.drawn (d : Dev) : Nat × Dev := (Config.freeNat d.free, { d with free := d.free + 1 })

/-- Record what the block sends. -/
def Dev.emit (d : Dev) (x : Sent) : Dev := { d with sent := d.sent ++ [x] }

/-! Memory (R116) -/

/-- What an address reads as when no cell lists it: zero, or a free byte inside a range of undefined contents. -/
def unlisted : List (Nat × Nat × Nat) → Nat → Byte
  | [], _ => 0
  | (lo, len, seed) :: t, a => if lo ≤ a ∧ a < lo + len then Config.freeByte seed a else unlisted t a

def findCell : List Host.Cell → Nat → Option Byte
  | [], _ => none
  | (k, v) :: t, a => if k = a then some v else findCell t a

/-- One byte of memory. -/
def Memory.read (m : Memory) (a : Nat) : Byte := (findCell m.cells a).getD (unlisted m.scrambled a)

/-- Take a cell out. -/
def eraseCell : List Host.Cell → Nat → List Host.Cell
  | [], _ => []
  | (k, v) :: t, a => if k = a then eraseCell t a else (k, v) :: eraseCell t a

/-- Put a cell in its place. -/
def insertCell : List Host.Cell → Nat → Byte → List Host.Cell
  | [], a, b => [(a, b)]
  | (k, v) :: t, a, b =>
    if a < k then (a, b) :: (k, v) :: t else if a = k then (a, b) :: t else (k, v) :: insertCell t a b

/-- Write one byte, keeping the canonical form: a byte equal to what the address reads as unlisted is not listed. -/
def Memory.write (m : Memory) (a : Nat) (b : Byte) : Memory :=
  { m with cells := if b = unlisted m.scrambled a then eraseCell m.cells a else insertCell m.cells a b }

/-- Make the contents of a range undefined (R72, R342, R408). -/
def Memory.scramble (m : Memory) (lo len seed : Nat) : Memory :=
  { cells := m.cells.filter (fun c => !(lo ≤ c.1 && c.1 < lo + len)), scrambled := (lo, len, seed) :: m.scrambled }

/-- n bytes from an address upwards. -/
def Memory.readN (m : Memory) (a : Nat) : Nat → Bytes
  | 0 => []
  | n + 1 => m.read a :: m.readN (a + 1) n

/-- A string of bytes to an address upwards. -/
def Memory.writeN (m : Memory) (a : Nat) : Bytes → Memory
  | [] => m
  | b :: t => (m.write a b).writeN (a + 1) t

/-- Zero a range: cells inside it go, and if a scrambled range reaches it every byte of it is written. -/
def Memory.zero (m : Memory) (lo len : Nat) : Memory :=
  if m.scrambled.all (fun r => lo + len ≤ r.1 || r.1 + r.2.1 ≤ lo) then
    { m with cells := m.cells.filter (fun c => !(lo ≤ c.1 && c.1 < lo + len)) }
  else m.writeN lo (zeros len)

/-- The cells stand at strictly rising addresses. -/
def rising : List Host.Cell → Bool
  | [] => true
  | [_] => true
  | a :: b :: t => a.1 < b.1 && rising (b :: t)

/-- The canonical form of memory. -/
def Memory.wf (m : Memory) : Bool := rising m.cells && m.cells.all (fun c => c.2 != unlisted m.scrambled c.1)

def Dev.mread (d : Dev) (a n : Nat) : Bytes := d.mem.readN a n
def Dev.mnum (d : Dev) (a n : Nat) : Nat := ofLe (d.mem.readN a n)

/-! Channels and interleave sets (R349, R350), as the MEM registers show them -/

def memCh (n off : Nat) : Nat := MEM + 0x10000 + n * 0x1000 + off
def memSet (k off : Nat) : Nat := MEM + 0x20000 + k * 0x20 + off

/-- Channels of a mask, ascending. -/
def maskList (m : Nat) : List Nat := (List.range 16).filter (bit m ·)

def Dev.setMask (d : Dev) (k : Nat) : Nat := d.rf (memSet k 0) 15 0
def Dev.setValid (d : Dev) (k : Nat) : Bool := d.rbit (memSet k 0) 31
def Dev.setBase (d : Dev) (k : Nat) : Nat := d.rn2 (memSet k 4)
def Dev.setSize (d : Dev) (k : Nat) : Nat := d.rn2 (memSet k 12)

/-- The set of a DRAM address. -/
def Dev.setOf (d : Dev) (a : Nat) : Option Nat :=
  (List.range 4).find? (fun k => d.setValid k && d.setBase k ≤ a && a < d.setBase k + d.setSize k)

/-- Channel and address within the channel of a DRAM address (R349). -/
def Dev.channelOf (d : Dev) (a : Nat) : Option (Nat × Nat) :=
  match d.setOf a with
  | none => none
  | some k =>
    let chans := maskList (d.setMask k)
    let n := max 1 chans.length
    let x := a - d.setBase k
    let blk := x / 4096
    some (chans.getD (blk % n) 0, blk / n * 4096 + x % 4096)

/-- DRAM address of an address within a channel of a set (R349). -/
def Dev.deviceAddr (d : Dev) (ch c : Nat) : Nat :=
  let k := d.rf (memCh ch 0) 6 4
  let chans := maskList (d.setMask k)
  let p := chans.findIdx (· == ch)
  d.setBase k + (c / 4096 * chans.length + p) * 4096 + c % 4096

/-- What a write does to the marks of the lines it covers whole (R356, R359 INJECT): they go, and a channel with INJECT
set stores its error in the first of them that lies on it. -/
def Dev.lineWrites (d : Dev) (a n : Nat) : Dev :=
  let lo := ceilDiv a 64
  let hi := (a + n) / 64
  let d := if d.lines.any (fun l => lo * 64 ≤ l.1 && l.1 < hi * 64)
    then { d with lines := d.lines.filter (fun l => !(lo * 64 ≤ l.1 && l.1 < hi * 64)) } else d
  (List.range 16).foldl (fun d ch =>
    let inj := d.rf (memCh ch 4) 9 8
    if inj = 0 ∨ inj = 3 then d
    else match firstWhere (fun i => match d.channelOf (i * 64) with | some c => c.1 == ch | none => false) (hi - lo) lo with
      | some i => { (d.wf (memCh ch 4) 9 8 0) with lines := tput d.lines (i * 64) inj }
      | none => d) d

/-- Write memory. -/
def Dev.mwrite (d : Dev) (a : Nat) (b : Bytes) : Dev :=
  let d := { d with mem := d.mem.writeN a b }
  if a < SLATE then d.lineWrites a b.length else d

/-- Zero a range of memory (R58 ZERO_ON_LOAD). -/
def Dev.mzero (d : Dev) (a n : Nat) : Dev :=
  let d := { d with mem := d.mem.zero a n }
  if a < SLATE then d.lineWrites a n else d

/-- Make a range undefined, with a fresh seed. -/
def Dev.scramble (d : Dev) (lo len : Nat) : Dev :=
  if len = 0 then d else { d with mem := d.mem.scramble lo len d.free, free := d.free + 1 }

/-- Whether a read of a range finds a line uncorrectable (R347, R356). -/
def Dev.poisoned (d : Dev) (a n : Nat) : Bool :=
  n != 0 && d.lines.any (fun l => (l.2 == 2 || l.2 == 3) && l.1 < a + n && a < l.1 + 64)

/-! Units by number -/

def Dev.quad (d : Dev) (q : Nat) : QuadSt := tget {} d.quads q
def Dev.setQuad (d : Dev) (q : Nat) (x : QuadSt) : Dev := { d with quads := tput d.quads q x }
def Dev.seat (d : Dev) (s : Nat) : SeatSt := tget {} d.seats s
def Dev.setSeat (d : Dev) (s : Nat) (x : SeatSt) : Dev := { d with seats := tput d.seats s x }
def Dev.tutor (d : Dev) (t : Nat) : TutorSt := tget {} d.tutors t
def Dev.setTutor (d : Dev) (t : Nat) (x : TutorSt) : Dev := { d with tutors := tput d.tutors t x }
def Dev.ring (d : Dev) (n : Nat) : RingSt := tget {} d.host.rings n
def Dev.setRing (d : Dev) (n : Nat) (x : RingSt) : Dev := { d with host := { d.host with rings := tput d.host.rings n x } }
def Dev.emitSt (d : Dev) (n : Nat) : EmitSt := tget {} d.emits n
def Dev.setEmit (d : Dev) (n : Nat) (x : EmitSt) : Dev := { d with emits := tput d.emits n x }

/-! Seats and tutors by reference (R52, R53, R107) -/

/-- Dense seat index of a seat reference, if it names a seat that exists (R52, R53, R14). -/
def denseSeat (r : Nat) : Option Nat :=
  let u := bits r 10 0
  if bits r 12 11 ≠ 0 ∨ r ≥ 0x10000 then none
  else match bits r 15 13 with
    | 0 => if tileOk u then some (denseTile u) else none
    | 1 => if clusterOk u then some (1152 + denseCluster u) else none
    | 2 => if clusterOk u then some (1224 + denseCluster u) else none
    | 3 => if u < 6 then some (1296 + u) else none
    | _ => none

/-- Seat reference of a dense seat index. -/
def seatRef (s : Nat) : Nat :=
  if s < 1152 then tileId s
  else if s < 1224 then 0x2000 + clusterId (s - 1152)
  else if s < 1296 then 0x4000 + clusterId (s - 1224)
  else 0x6000 + (s - 1296)

/-- Quadrant of a seat; none for a port (R90). -/
def seatQuad (s : Nat) : Option Nat :=
  if s < 1152 then some (s / 144)
  else if s < 1224 then some ((s - 1152) / 9)
  else if s < 1296 then some ((s - 1224) / 9)
  else none

/-- Dense cluster index of a tile, gather-engine or statistics-unit seat. -/
def seatCluster (s : Nat) : Nat :=
  if s < 1152 then s / 16 else if s < 1224 then s - 1152 else s - 1224

/-- Dense tutor index of a tutor reference (R107): tiles, gather engines, schedulers, ports. -/
def denseTutor (r : Nat) : Option Nat :=
  let u := bits r 10 0
  if r ≥ 0x4000 ∨ bit r 11 then none
  else match bits r 13 12 with
    | 0 => if tileOk u then some (denseTile u) else none
    | 1 => if clusterOk u then some (1152 + denseCluster u) else none
    | 2 => if u < 8 then some (1224 + u) else none
    | _ => if u < 6 then some (1232 + u) else none

/-- Tutor reference of a dense tutor index. -/
def tutorRef (t : Nat) : Nat :=
  if t < 1152 then tileId t
  else if t < 1224 then 0x1000 + clusterId (t - 1152)
  else if t < 1232 then 0x2000 + (t - 1224)
  else 0x3000 + (t - 1232)

/-- Address of a tutor's registers (R111). -/
def tutorRegs (t : Nat) : Nat :=
  if t < 1152 then tilReg t 0xC0
  else if t < 1224 then cluReg (t - 1152) 0x4C0
  else if t < 1232 then qdrReg (t - 1224) 0xC0
  else prtReg (t - 1232) 0xC0

/-- Dense seat of a tutor; a scheduler is no seat. -/
def tutorSeat (t : Nat) : Option Nat :=
  if t < 1152 then some t else if t < 1224 then some t else if t < 1232 then none else some (1296 + (t - 1232))

/-- Dense tutor of a seat; a statistics unit has none (R16). -/
def seatTutor (s : Nat) : Option Nat :=
  if s < 1224 then some s else if s < 1296 then none else some (1232 + (s - 1296))

/-- Kind bit of a tutor in a drill image's mask (R65). -/
def tutorKind (t : Nat) : Nat :=
  if t < 1152 then 0 else if t < 1224 then 1 else if t < 1232 then 2 else if t < 1236 then 3 else 4

/-! Time -/

/-- Quadrant-core cycles that have passed (R88). -/
def Dev.qcyc (d : Dev) : Nat := d.qcyc64 / 64

/-- Cycles E since the bell was accepted, none while no bell has been since ENABLE (R23, R29). -/
def Dev.sinceBell (d : Dev) : Option Nat := d.pht.origin.map (fun o => d.now - o)

/-- The phase (R29): 0 before the first bell after ENABLE and while P is 0; 65,535 in HOLDOVER (R30). -/
def Dev.phase (d : Dev) : Nat :=
  match d.sinceBell with
  | none => 0
  | some e =>
    if d.pht.mode = .holdover then 65535
    else if d.pht.p ≤ 0 then 0 else min 65535 (e * 2 ^ 28 / d.pht.p.toNat)

/-- The step count as a number. -/
def Dev.step (d : Dev) : Nat := d.pht.step.toNat

/-! Allocation records -/

def Dev.alloc (d : Dev) (id : Nat) : Option Alloc := d.plt.allocs.find? (fun a => a.id == id)

/-- The records that hold a whole range. -/
def Dev.allocsAt (d : Dev) (a n : Nat) : List Alloc :=
  d.plt.allocs.filter (fun r => r.base ≤ a && a + n ≤ r.base + r.size)

/-- Routes in force whose source is a seat reference or stream, in ascending ROUTE_ID (R62). -/
def Dev.routesFrom (d : Dev) (src : Nat) : List Route := d.plt.routes.filter (fun r => r.src == src)

end Sys2Proof.Machine
end

