-- ==== Sys2Proof/Machine/Links.lean ====
section
/-! DEFINITION. What happens to the links of the module as a whole (R403). -/
namespace Sys2Proof.Machine

def Dev.port (d : Dev) (p : Nat) : PortSt := tget {} d.fab.ports p
def Dev.setPort (d : Dev) (p : Nat) (x : PortSt) : Dev := { d with fab := { d.fab with ports := tput d.fab.ports p x } }

def Dev.eth (d : Dev) (n : Nat) : EthSt := tget {} d.eths n
def Dev.setEth (d : Dev) (n : Nat) (x : EthSt) : Dev := { d with eths := tput d.eths n x }

/-- An Ethernet link goes down: what waited to be sent and the pauses on it are gone (R181). -/
def Dev.ethLinkDown (d : Dev) (n : Nat) : Dev :=
  let x := d.eth n
  if x.up then (d.setEth n { x with up := false, tx := [], paused := [] }).wbit (ethReg n 4) 0 true else d

/-- Take the Ethernet links down. -/
def Dev.ethDown (d : Dev) : Dev := (d.ethLinkDown 0).ethLinkDown 1

/-- What entry to ISOLATE does to the links (R403): every Miohar port goes to DISABLED, both Ethernet links go down, ALIVE
stops. The shunts close by SHUNT_CHANGE. -/
def Dev.isolate (d : Dev) : Dev :=
  let d := (List.range 4).foldl (fun d p =>
    let x := d.port p
    let d := d.setPort p { x with state := 0, since := d.now, width := 0 }
    if x.state = 5 then d.wbit (prtReg p 4) 13 true else d) d
  let d := d.ethDown
  if d.alive then { d.emit (.alive false) with alive := false } else d

end Sys2Proof.Machine
end

