-- ==== Sys2Proof/Machine/LineCode.lean ====
section
/-! DEFINITION. The physical layer of a Miohar port: bits, scrambler, Reed–Solomon code, lanes, alignment markers and training
frames (R361 to R364, R367). A symbol is a number below 1,024. -/
namespace Sys2Proof.Machine

/-- Bits of a number, the least significant first. -/
def natBits (n v : Nat) : List Bool := (List.range n).map (fun i => v.testBit i)
/-- Bits of bytes in ascending offset, each byte's least significant bit first (R362). -/
def byteBits (b : Bytes) : List Bool := b.flatMap (fun x => (List.range 8).map (fun i => x.getLsbD i))
/-- The number of a run of bits whose first is bit 0. -/
def bitsNum : List Bool → Nat
  | [] => 0
  | b :: t => b2n b + 2 * bitsNum t
/-- Ten bits to a symbol, the first in symbol bit 0 (R362). -/
def symbols (l : List Bool) : List Nat := (chunk 10 l).map bitsNum

/-! Scrambler of IEEE 802.3 Clause 49, x^58 + x^39 + 1 (R362) -/

/-- Scramble bits: the register holds the last 58 bits sent, the latest in bit 0. -/
def scramble (reg : Nat) : List Bool → List Bool × Nat
  | [] => ([], reg)
  | b :: t =>
    let o := b ^^ reg.testBit 38 ^^ reg.testBit 57
    let r := scramble ((2 * reg + b2n o) % 2 ^ 58) t
    (o :: r.1, r.2)

/-- Undo it: the register holds the last 58 bits received. -/
def descramble (reg : Nat) : List Bool → List Bool × Nat
  | [] => ([], reg)
  | o :: t =>
    let r := descramble ((2 * reg + b2n o) % 2 ^ 58) t
    ((o ^^ reg.testBit 38 ^^ reg.testBit 57) :: r.1, r.2)

/-! RS(544,514) of IEEE 802.3 Clause 91 (R362): GF(2^10) over x^10 + x^3 + 1, generator with the roots α^0 to α^29, the first
symbol the highest power (PRESUMED, log entry 102). -/

/-- Multiplication in GF(2^10). -/
def gfMul (a b : Nat) : Nat :=
  (List.range 10).reverse.foldl (fun r i =>
    let r := 2 * r
    let r := if 1024 ≤ r then r ^^^ 0x409 else r
    if b.testBit i then r ^^^ a else r) 0
/-- α^n. -/
def gfPow : Nat → Nat
  | 0 => 1
  | n + 1 => gfMul 2 (gfPow n)
/-- The generator without its leading 1, the highest power first: the product of x + α^j for j below n. -/
def rsGen : Nat → List Nat
  | 0 => []
  | n + 1 =>
    let g := rsGen n
    List.zipWith (· ^^^ ·) (g ++ [0]) ((1 :: g).map (gfMul (gfPow n)))
/-- The 30 parity symbols of a message. -/
def rsParity (msg : List Nat) : List Nat :=
  let gen := rsGen 30
  msg.foldl (fun reg m =>
    let f := m ^^^ reg.headD 0
    List.zipWith (· ^^^ ·) (reg.drop 1 ++ [0]) (gen.map (gfMul f))) (List.replicate 30 0)
def rsEncode (msg : List Nat) : List Nat := msg ++ rsParity msg
/-- The value of a received word at α^j: all 30 are zero of a codeword. -/
def rsSyndrome (word : List Nat) (j : Nat) : Nat := word.foldl (fun s c => gfMul s (gfPow j) ^^^ c) 0

/-! Flit groups on the line (R363, R364) -/

/-- The 40-bit group header (R364). -/
def groupHeader (gseq ack kind : Nat) : Nat := at_ (gseq % 4096) 28 + at_ (ack % 4096) 16 + at_ (kind % 4) 14

/-- Message bits of codewords A and B (R364): each header half after its flit bytes, its lowest bit first (log entry 102). -/
def groupBits (header : Nat) (flits : List Bytes) : List Bool × List Bool :=
  let data := padTo 1280 (flits.flatten)
  (byteBits (data.take 640) ++ natBits 20 (header / 2 ^ 20), byteBits (data.drop 640) ++ natBits 20 header)

/-- The lanes that a port uses: width 2 is x8, width 1 is x4 on the active half (R361, R370). -/
def PortSt.active (x : PortSt) : List Nat :=
  if x.width = 2 then List.range 8 else if x.width = 1 then (List.range 4).map (· + 4 * x.half) else []

/-- What a lane carries of a codeword: symbol i goes on the (i mod n)-th of the n active lanes (R362). -/
def laneShare (word : List Nat) (n k : Nat) : List Nat :=
  ((List.range word.length).filter (fun i => i % n == k)).map (fun i => word.getD i 0)

/-- The alignment marker of a lane (R363); in a training frame symbol 14 is 0x155 (R367). -/
def laneMarker (lane sym14 : Nat) : List Nat :=
  (List.range 12).map (fun i => if i % 2 = 0 then 0x2D3 else 0x12C) ++ [lane, 0x3FF - lane, sym14, 0x3FF]

/-- Groups from one marker to the next: 4,352 symbols a lane (R363, R369). -/
def PortSt.markerRun (x : PortSt) : Nat := if x.width = 2 then 32 else 16

/-- A group as the lanes carry it, with the alignment markers that come before it, and the port after it (R362 to R364). -/
def PortSt.line (x : PortSt) (header : Nat) (flits : List Bytes) : List (Nat × List Nat) × PortSt :=
  let m := groupBits header flits
  let a := scramble x.scrambler m.1
  let b := scramble a.2 m.2
  let n := x.active.length
  let words := rsEncode (symbols a.1) :: [rsEncode (symbols b.1)]
  let share (k : Nat) : List Nat := words.flatMap (fun w => laneShare w n k)
  let mark (lane : Nat) : List Nat := if x.sinceMark = 0 then laneMarker lane 0 else []
  ((List.range n).map (fun k => let lane := x.active.getD k 0; (lane, mark lane ++ share k)),
    { x with scrambler := b.2, sinceMark := (x.sinceMark + 1) % x.markerRun })

/-- The codeword (0 A, 1 B) of a group and the symbol of it that are the k-th symbol of the group on a lane (R362). -/
def PortSt.symbolAt (x : PortSt) (lane k : Nat) : Option (Nat × Nat) :=
  let n := x.active.length
  let per := 544 / n
  match x.active.findIdx? (· == lane) with
  | some j => if k < 2 * per then some (k / per, k % per * n + j) else none
  | none => none

/-- Symbols of a codeword that arrive wrong, out of the places (lane, symbol of the group's run) at which the lanes erred. -/
def PortSt.wrongSymbols (x : PortSt) (errors : List (Nat × Nat)) (word : Nat) : Nat :=
  ((errors.filterMap (fun e => x.symbolAt e.1 e.2)).filter (fun e => e.1 == word)).eraseDups.length

/-- Codewords of a group that the code corrects: 1 to 15 wrong symbols (R362). -/
def PortSt.corrected (x : PortSt) (errors : List (Nat × Nat)) : Nat :=
  ([0, 1].filter (fun w => let n := x.wrongSymbols errors w; 1 ≤ n && n ≤ 15)).length
/-- Codewords of a group that it cannot correct (R362). -/
def PortSt.uncorrectable (x : PortSt) (errors : List (Nat × Nat)) : Nat :=
  ([0, 1].filter (fun w => decide (15 < x.wrongSymbols errors w))).length

/-! Training frames (R367) -/

/-- CRC-8 of polynomial 0x07 over bytes (R367). -/
def crc8 (b : Bytes) : Byte :=
  b.foldl (fun c x => (List.range 8).foldl (fun c _ => if c.getLsbD 7 then (c <<< 1) ^^^ 7#8 else c <<< 1) (c ^^^ x)) 0#8

/-- The next bits of a lane's PRBS31 (x^31 + x^28 + 1) and the register after them (R366, R367). -/
def prbs31 : Nat → Nat → List Bool × Nat
  | 0, reg => ([], reg)
  | n + 1, reg =>
    let b := reg.testBit 30 ^^ reg.testBit 27
    let r := prbs31 n ((2 * reg + b2n b) % 2 ^ 31)
    (b :: r.1, r.2)

/-- The control bytes that received control symbols spell: none where bits 9:8 are not 0b01 or the CRC fails (R367). -/
def controlBytes (syms : List Nat) : Option Bytes :=
  let c : Bytes := syms.map (fun s => BitVec.ofNat 8 s)
  if syms.length = 16 ∧ syms.all (fun s => s / 256 == 1) ∧ crc8 (c.take 15) = c.getD 15 0 then some c else none

/-- The symbols of a training frame. -/
def trainingSymbols (lane : Nat) (control : Bytes) (fill : List Bool) : List Nat :=
  laneMarker lane 0x155 ++ control.map (fun b => 0x100 + b.toNat) ++ symbols fill

end Sys2Proof.Machine
end

