-- ==== Sys2Proof/Machine/Events.lean ====
section
/-! DEFINITION. Interrupts, completions, events and faults: what the block reports (R152 to R157, R395 to R405). -/
namespace Sys2Proof.Machine

/-! Interrupts (R157) -/

/-- Send an MSI-X vector, or set its pending bit while it is masked. -/
def Dev.msix (d : Dev) (v : Nat) : Dev :=
  if d.host.masked.contains v then
    { d with host := { d.host with pendingIrq := if d.host.pendingIrq.contains v then d.host.pendingIrq else d.host.pendingIrq ++ [v] } }
  else d.emit (.msix v)

/-- Send a ring's vector and restart its count and timer. -/
def Dev.ringIrq (d : Dev) (n : Nat) : Dev :=
  ((d.setRing n { d.ring n with irqCount := 0 })).msix (d.rf (rngReg n 0) 10 0)

/-- Count an entry just written, and send the vector when R157 says so. -/
def Dev.countEntry (d : Dev) (n : Nat) (irq : Bool) : Dev :=
  if d.rbit (rngReg n 0) 23 then
    let r := d.ring n
    let c := r.irqCount + 1
    let d := d.setRing n { r with irqCount := c, irqSince := if c = 1 then d.now else r.irqSince }
    if irq || max (d.rf (rngReg n 0x18) 15 0) 1 ≤ c then d.ringIrq n else d
  else d

/-! Ring geometry (R141, R143) -/

def Dev.ringEn (d : Dev) (n : Nat) : Bool := d.rbit (rngReg n 0) 31
def Dev.ringKind (d : Dev) (n : Nat) : Nat := d.rf (rngReg n 0) 30 29
def Dev.ringLog (d : Dev) (n : Nat) : Nat := d.rf (rngReg n 0) 28 24
def Dev.ringHead (d : Dev) (n : Nat) : Nat := d.rn (rngReg n 0x10)
def Dev.ringTail (d : Dev) (n : Nat) : Nat := d.rn (rngReg n 0x14)
/-- Entries held: TAIL − HEAD modulo 2^32. -/
def Dev.ringUsed (d : Dev) (n : Nat) : Nat := (d.ringTail n + 2 ^ 32 - d.ringHead n) % 2 ^ 32
def Dev.ringFull (d : Dev) (n : Nat) : Bool := 2 ^ d.ringLog n ≤ d.ringUsed n
/-- PHASE of an index (R152). -/
def Dev.ringPhase (d : Dev) (n idx : Nat) : Bool := !(bit idx (d.ringLog n))
/-- Host address of an index's slot, for entries of a size. -/
def Dev.ringAddr (d : Dev) (n idx sz : Nat) : Nat := d.rn2 (rngReg n 8) + idx % 2 ^ d.ringLog n * sz

/-- An entry directed at a ring that is not enabled, or not of its kind, is discarded (R139, R143, R60). -/
def Dev.lost (d : Dev) (n : Nat) : Dev := (d.bump RNG).wbit (rngReg n 4) 1 true

/-! Events (R155, R156) -/

/-- Offer an event to a ring: it takes the ring's next SEQ and the step and phase of now, and waits to be written. -/
def Dev.offer (d : Dev) (ring type source : Nat) (waits : Bool) (payload : Bytes) : Dev :=
  let seq := d.rn (rngReg ring 0x20)
  let body := leB 1 type ++ leB 1 0 ++ leB 2 source ++ leB 4 d.step ++ leB 2 (d.step / 2 ^ 32) ++ leB 2 d.phase
    ++ leB 4 seq ++ padTo 48 (payload.take 48)
  let d := d.wn (rngReg ring 0x20) (seq + 1)
  if d.ringEn ring && d.ringKind ring == 2 then
    { d with host := { d.host with events := d.host.events ++ [{ ring, waits, body }] } }
  else d.lost ring

/-- Write an event entry into its ring, which has room. -/
def Dev.writeEvent (d : Dev) (ring : Nat) (body : Bytes) : Dev :=
  let idx := d.ringTail ring
  let body := patch body 1 [if d.ringPhase ring idx then 0x80#8 else 0#8]
  ((d.emit (.hostWrite (d.ringAddr ring idx 64) body false)).wn (rngReg ring 0x14) (idx + 1)).countEntry ring false

/-- EVENT_POST (R156): the oldest event waiting for a ring is written; while the ring is full, the oldest that is marked
Discarded is dropped, and those marked Waits stay where they are. -/
def Dev.postEvent (d : Dev) (ring : Nat) : Dev :=
  let on := d.ringEn ring && d.ringKind ring == 2
  let full := on && d.ringFull ring
  match d.host.events.find? (fun e => e.ring == ring && !(full && e.waits)) with
  | none => d
  | some e =>
    let d' := { d with host := { d.host with events := d.host.events.erase e } }
    if !on then d'.lost ring
    else if full then (d'.bump (rngReg ring 0x1C)).wbit (rngReg ring 4) 2 true
    else d'.writeEvent ring e.body

/-! Faults (R395 to R405) -/

def Dev.fltLevel (d : Dev) (s : Nat) : Nat := d.rf (FLT + 0x200 + s / 16 * 4) (2 * (s % 16) + 1) (2 * (s % 16))
def Dev.fltSeq (d : Dev) : Nat := d.rn (FLT + 0x10)
/-- Grace time in milliseconds (R412). -/
def Dev.grace (d : Dev) : Nat := min 10000 (max 1 (d.rf (FLT + 8) 13 0))

/-- The payload of a fault event (R399). -/
def Dev.faultPayload (d : Dev) (level unit detail addr aborted : Nat) : Bytes :=
  leB 1 level ++ leB 1 d.flt.stage ++ leB 2 unit ++ leB 1 detail ++ zeros 3 ++ leB 8 addr ++ leB 4 d.fltSeq ++ leB 4 aborted
    ++ zeros 24

/-- The fault interrupt (R398). -/
def Dev.fltIrq (d : Dev) : Dev := if d.rbit (FLT + 0xC) 31 then d.msix (d.rf (FLT + 0xC) 10 0) else d

/-- Change the escalation stage: its effect at once, one event with SOURCE 0xFFFF, one interrupt (R398, R399, R401). -/
def Dev.setStage (d : Dev) (n level : Nat) : Dev :=
  if d.flt.stage = n then d
  else
    let iso := decide (d.flt.stage < 2) && decide (2 ≤ n)
    let d := { d with flt := { d.flt with stage := n } }
    let d := if iso then d.isolate else d
    (d.offer (d.rf FLT 13 0) 5 0xFFFF false (d.faultPayload level 0 0 0 0)).fltIrq

/-- What a fault source, its unit, detail and address are, and the tags aborted (R399). -/
structure FaultArgs where
  unit : Nat := 0
  detail : Nat := 0
  addr : Nat := 0
  aborted : Nat := 0

/-- One occurrence of a fault source, but for the event of a stage change (R395 to R401); the level at which it raised the
stage, if it did. -/
def Dev.faultCore (d : Dev) (s : Nat) (x : FaultArgs) : Dev × Option Nat :=
  if !fltAssigned s then (d, none)
  else
    let a := FLT + 0x100 + s / 32 * 4
    let level := d.fltLevel s
    let was := d.rbit a (s % 32)
    let d := d.wbit a (s % 32) true
    if level = 0 then (d, none)
    else
      let d := if 2 ≤ level then d.wn (FLT + 0x10) (d.fltSeq + 1) else d
      let d := if 2 ≤ level && !d.flt.timerRun then
          { (d.wn (FLT + 0x20) (2 ^ 31 + s)) with flt := { d.flt with timerRun := true, started := d.now, limit := d.grace } }
        else d
      let up := level == 3 && decide (d.flt.stage < 2)
      let stage := if up then 2 else d.flt.stage
      let d := { d with flt := { d.flt with stage := stage } }
      let d := if up then d.isolate else d
      let d := d.offer (d.rf FLT 13 0) 5 s false (d.faultPayload level x.unit x.detail x.addr x.aborted)
      (if was then d else d.fltIrq, if up then some level else none)

/-- The event and the interrupt of a stage change (R398, R399). -/
def Dev.stageEvent (d : Dev) (up : Option Nat) : Dev :=
  match up with
  | some level => (d.offer (d.rf FLT 13 0) 5 0xFFFF false (d.faultPayload level 0 0 0 0)).fltIrq
  | none => d

/-- One occurrence of a fault source (R395 to R401). -/
def Dev.fault (d : Dev) (s : Nat) (unit : Nat := 0) (detail : Nat := 0) (addr : Nat := 0) (aborted : Nat := 0) : Dev :=
  let r := d.faultCore s { unit, detail, addr, aborted }
  r.1.stageEvent r.2

/-- Occurrences of one cycle, in ascending source number; the stage-change event comes last (R399). -/
def Dev.faults (d : Dev) (l : List (Nat × FaultArgs)) : Dev :=
  let r := l.foldl (fun (a : Dev × Option Nat) x =>
    let r := a.1.faultCore x.1 x.2
    (r.1, if a.2.isSome then a.2 else r.2)) (d, none)
  r.1.stageEvent r.2

/-- Whether schedulers select and pipes start work (R402). -/
def Dev.dispatching (d : Dev) : Bool := d.flt.stage == 0

/-! Completions (R152 to R154) -/

/-- RESULT and origin of a descriptor that has completed, waiting to be written to its completion ring. -/
def Dev.complete (d : Dev) (o : Origin) (lane : Option Nat) (status : Status) (detail result : Nat) : Dev :=
  let cr : Option Nat := if o.ring = 0 then some 1 else (d.plt.ringMap.find? (fun m => m.ring == o.ring)).map (·.cplRing)
  let r := d.ring o.ring
  let d := d.setRing o.ring { r with open_ := r.open_.filter (· != o.serial) }
  match cr with
  | some c => { d with host := { d.host with cpls := d.host.cpls ++ [{ ring := c, lane, origin := o, status, detail, result }] } }
  | none => d.bump RNG

/-- The first completion of a ring that no earlier completion of its lane waits before (R153). -/
def nextCpl (ring : Nat) (before : List (Option Nat)) : List Cpl → Option Cpl
  | [] => none
  | c :: t =>
    if c.ring = ring ∧ (c.lane = none ∨ ¬ c.lane ∈ before) then some c else nextCpl ring (c.lane :: before) t

/-- The 16 bytes of a completion (R152). -/
def Cpl.bytes (c : Cpl) (phase : Bool) : Bytes :=
  leB 4 c.origin.index ++ leB 2 (c.origin.ring + if phase then 0x8000 else 0) ++ leB 1 c.status.code ++ leB 1 c.detail
    ++ leB 4 c.result ++ leB 4 c.origin.user

/-- COMPLETION_POST (R152, R153): the next completion of a ring is written, waits for space, or is discarded. -/
def Dev.postCpl (d : Dev) (ring : Nat) : Dev :=
  match nextCpl ring [] d.host.cpls with
  | none => d
  | some c =>
    let gone (d : Dev) : Dev := { d with host := { d.host with cpls := d.host.cpls.erase c } }
    if !(d.ringEn ring && d.ringKind ring == 1) then (gone d).lost ring
    else if d.ringFull ring then
      if d.rbit (rngReg ring 4) 3 then d else (d.wbit (rngReg ring 4) 3 true).fault 9
    else
      let idx := d.ringTail ring
      let d := (gone d).emit (.hostWrite (d.ringAddr ring idx 16) (c.bytes (d.ringPhase ring idx)) false)
      (d.wn (rngReg ring 0x14) (idx + 1)).countEntry ring c.origin.irq

end Sys2Proof.Machine
end

