-- ==== Sys2Proof/Machine/Waits.lean ====
section
/-! DEFINITION. What a task may have to wait for: a sealed tag of the field book (R43 to R46), a sealed build of a join
(R232); with the records, the tags and the operation entries that this needs. -/
namespace Sys2Proof.Machine

/-- A task that has not been selected. -/
def TaskPhase.early : TaskPhase → Bool
  | .waiting => true | .held => true | .ready _ _ => true | _ => false

/-! Records (R45, R46) -/

/-- The 96 bytes of a record. -/
def FbRec.bytes (r : FbRec) : Bytes :=
  leB 8 r.count ++ leB 8 r.nulls ++ leB 16 (tc 128 r.sum) ++ leB 16 r.squares ++ leB 8 (tc 64 r.min) ++ leB 8 (tc 64 r.max)
    ++ leB 4 r.sats ++ leB 4 (b2n r.seed + 2 * b2n r.sumSat + 4 * b2n r.sqSat) ++ leB 8 r.tag.toNat ++ leB 8 r.ext ++ zeros 8

/-- A seed record as a NORM seat sees it: flags and tag ignored, SEED set (R44, R458). -/
def seedRec (b : Bytes) : FbRec :=
  { count := fld b 0 8, nulls := fld b 8 8, sum := sx 128 (fld b 16 16), squares := fld b 32 16, min := sx 64 (fld b 48 8)
    max := sx 64 (fld b 56 8), sats := fld b 64 4, seed := true, ext := fld b 80 8 }

/-- Observe one value (R46): sums clamp, set their flag and count a saturation. -/
def FbRec.add (r : FbRec) (v : Int) : FbRec :=
  let s := r.sum + v
  let sc := clampI (-(2 ^ 127)) (2 ^ 127 - 1) s
  let q := r.squares + (v * v).toNat
  let qc := Nat.min q (2 ^ 128 - 1)
  { r with count := r.count + 1, sum := sc, squares := qc, min := if v < r.min then v else r.min
           max := if r.max < v then v else r.max
           sumSat := r.sumSat || sc != s, sqSat := r.sqSat || qc != q
           sats := Nat.min m32 (r.sats + b2n (sc != s) + b2n (qc != q)) }

/-- Observe a null. -/
def FbRec.addNull (r : FbRec) : FbRec := { r with nulls := r.nulls + 1 }

/-! Tags (R43, R45) -/

def fbKey (unit stream : Nat) : Nat := unit * 64 + stream
def Dev.fbTags (d : Dev) (unit stream : Nat) : FbTags := tget {} d.fb.tags (fbKey unit stream)
def Dev.setFbTags (d : Dev) (unit stream : Nat) (x : FbTags) : Dev :=
  { d with fb := { d.fb with tags := tput d.fb.tags (fbKey unit stream) x } }

/-- A record of a tag must wait (R45). -/
def FbTags.stalls (x : FbTags) (b : Tag) : Bool :=
  2 ≤ (x.opened.filter (fun o => o.1 != b)).length
    || (4 ≤ b.toNat && (x.opened.any (fun o => o.1 == b - 4) || x.sealed_.contains (b - 4)) && !x.sealed_.any (fun t => b - 4 < t))

/-- Insert a tag in ascending order. -/
def openTag (b : Tag) (l : List (Tag × Bool)) : List (Tag × Bool) :=
  if l.any (fun o => o.1 == b) then l else insertBy (fun x y => x.1 ≤ y.1) (b, false) l

/-- A tag is named by work at a unit: the first since seating is remembered (R44). -/
def Dev.nameTag (d : Dev) (unit stream : Nat) (b : Tag) : Dev :=
  let x := d.fbTags unit stream
  if x.first.isSome then d else d.setFbTags unit stream { x with first := some b }

/-- Open a tag at a unit. -/
def Dev.openTagAt (d : Dev) (unit stream : Nat) (b : Tag) : Dev :=
  let d := d.nameTag unit stream b
  let x := d.fbTags unit stream
  d.setFbTags unit stream { x with opened := openTag b x.opened }

def bankKey (col : Nat) (b : Tag) : Nat := col * 4 + b.toNat % 4

/-- The record of a column's bank for a tag, if that tag is in it. -/
def Dev.bankRec (d : Dev) (col : Nat) (b : Tag) : Option FbRec :=
  match tfind d.fb.banks (bankKey col b) with
  | some r => if r.tag = b then some r else none
  | none => none

def Dev.setBank (d : Dev) (col : Nat) (b : Tag) (r : FbRec) : Dev :=
  { d with fb := { d.fb with banks := tput d.fb.banks (bankKey col b) { r with tag := b } } }

/-- The sealed record of a column for a tag. It is kept beside the four banks, since a NORM task may read it after its bank has
been taken by a later tag, and its result depends on the batch alone (R44, log entry 78). -/
def Dev.sealedRec (d : Dev) (col : Nat) (b : Tag) : Option FbRec := (tget [] d.fb.past col).find? (fun r => r.tag == b)

/-- The statistics a NORM seat reads for a batch of tag b (R44): those of tag b − 1, the seed for the first tag after
seating, none while tag b − 1 is not sealed. -/
def Dev.statsOf (d : Dev) (col : Nat) (b : Tag) : Option FbRec :=
  match tfind d.fb.cols col with
  | none => none
  | some c =>
    let x := d.fbTags c.unit c.stream
    let isFirst := match x.first with | none => true | some f => decide (b ≤ f)
    if isFirst || c.void.contains (b - 1) then some (seedRec c.seed)
    else if x.sealed_.contains (b - 1) then some ((d.sealedRec col (b - 1)).getD (seedRec c.seed))
    else none

/-! Parameter blocks (R208) -/

/-- An operation entry. -/
structure ColOp where
  op : Nat
  mode : Nat
  inA : Nat
  inB : Nat
  out : Nat
  outType : Nat
  flags : Nat
  workExp : Int
  outExp : Int
  p0 : Nat
  p1 : Int
  p2 : Int
  deriving DecidableEq, Repr, Inhabited

def colOp (e : Bytes) : ColOp :=
  { op := fld e 0 1, mode := fld e 1 1, inA := fld e 2 2, inB := fld e 4 2, out := fld e 6 2, outType := fld e 8 1
    flags := fld e 9 1, workExp := sx 8 (fld e 10 1), outExp := sx 8 (fld e 11 1), p0 := fld e 12 4
    p1 := sx 64 (fld e 16 8), p2 := sx 64 (fld e 24 8) }

def colOps (p : Bytes) : List ColOp := (List.range (fld p 0 2)).map (fun i => colOp (slice p (32 + 32 * i) 32))

/-- The field-book record that a z-score of a task's tag reads (R44, R204, R229): none while it must wait. -/
def Dev.normRec (d : Dev) (o : ColOp) (tag : Tag) : Option FbRec :=
  let col := bits o.p0 12 0
  if tag = BitVec.allOnes 48 then some ((tfind d.fb.visible col).getD {}) else d.statsOf col tag

/-! Joins (R231, R232) -/

/-- CARRY entries right after an entry. -/
def carries : List ColOp → List ColOp
  | [] => []
  | o :: t => if o.op = 0x42 then o :: carries t else []

/-- The entries of a code in a block, each with the CARRY entries right after it: a task runs them in entry order (R208). -/
def codeOps (code : Nat) : List ColOp → List (ColOp × List ColOp)
  | [] => []
  | o :: t => if o.op = code then (o, carries t) :: codeOps code t else codeOps code t

def joinId (o : ColOp) : Nat := bits o.p0 23 16

def Dev.join (d : Dev) (id : Nat) : JoinSt := tget {} d.joins id
def Dev.setJoin (d : Dev) (id : Nat) (j : JoinSt) : Dev := { d with joins := tput d.joins id j }

/-- Whether a block has a PROBE entry for the table of a join; a merge join has none. -/
def probesJoin (p : Bytes) (id : Nat) : Bool := (codeOps 0x41 (colOps p)).any (fun e => e.1.mode % 4 != 1 && joinId e.1 == id)

/-- The greater of a tag and one remembered. -/
def maxTag (a : Option Nat) (b : Nat) : Option Nat := some (max (a.getD 0) b)

/-- A build or probe task has been dispatched: its joins remember the greatest tag (R232). -/
def Dev.noteJoins (d : Dev) (p : Bytes) (tag : Nat) : Dev :=
  let d := (codeOps 0x40 (colOps p)).foldl (fun (d : Dev) e =>
    let j := d.join (joinId e.1)
    d.setJoin (joinId e.1) { j with built := maxTag j.built tag }) d
  ((codeOps 0x41 (colOps p)).filter (fun e => e.1.mode % 4 != 1)).foldl (fun (d : Dev) e =>
    let j := d.join (joinId e.1)
    d.setJoin (joinId e.1) { j with probed := maxTag j.probed tag }) d

/-- The build of a tag is sealed: by a build task of LENGTH 0, or by the dispatch of one with a greater tag (R232). -/
def Dev.buildSealed (d : Dev) (id tag : Nat) (perTag : Bool) : Bool :=
  let j := d.join id
  if !perTag then (tget {} j.tabs 0).sealed_
  else (tget {} j.tabs tag).sealed_ || (match j.built with | some b => decide (tag < b) | none => false)

/-- Scope of the build that a join's seats make (R231). -/
def Dev.joinPerTag (d : Dev) (id : Nat) : Bool :=
  match (d.plt.seats.filter (fun e => e.role == 6)).findSome? (fun e => (codeOps 0x40 (colOps e.params)).find? (fun b => joinId b.1 == id)) with
  | some b => !bit b.1.mode 0
  | none => true

/-- A PERSISTENT table is filled once per seating of its build seats: entries that seat them anew leave it empty (R232). -/
def Dev.reseatJoins (d : Dev) (es : List SeatEntry) : Dev :=
  ((es.filter (fun e => e.role == 6)).flatMap (fun e => codeOps 0x40 (colOps e.params))).foldl
    (fun (d : Dev) b => if bit b.1.mode 0 then d.setJoin (joinId b.1) {} else d) d

/-- A z-score's statistics are not sealed yet (R44). -/
def Dev.normWaits (d : Dev) (ops : List ColOp) (tag : Tag) : Bool :=
  ops.any (fun o => o.op == 0x30 && o.mode == 3 && (d.normRec o tag).isNone)

/-- The tags that a NORM task names at the units of its columns (R44). -/
def Dev.nameTags (d : Dev) (ops : List ColOp) (tag : Tag) : Dev :=
  if tag = BitVec.allOnes 48 then d
  else ops.foldl (fun d o =>
    if o.op = 0x30 ∧ o.mode = 3 then
      match tfind d.fb.cols (bits o.p0 12 0) with | some c => d.nameTag c.unit c.stream tag | none => d
    else d) d

end Sys2Proof.Machine
end

