-- ==== Sys2Proof/Machine/Sched.lean ====
section
/-! DEFINITION. Task packets, the matching store, ready lists, lanes, cancels, the lost-and-found queue and the attendance
counters (R84 to R102). -/
namespace Sys2Proof.Machine

/-! Task packets (R84) -/

def Pkt.direct (p : Bytes) : Bool := bit (fld p 0 2) 15
def Pkt.quad (p : Bytes) : Nat := bits (fld p 0 2) 14 12
def Pkt.index (p : Bytes) : Nat := bits (fld p 0 2) 11 0
def Pkt.role (p : Bytes) : Nat := fld p 2 1
def Pkt.epoch (p : Bytes) : Nat := fld p 3 1
def Pkt.seat (p : Bytes) : Nat := fld p 4 2
def Pkt.lane (p : Bytes) : Nat := bits (fld p 6 2) 9 0
def Pkt.opcount (p : Bytes) : Nat := bits (fld p 8 1) 2 0
def Pkt.slot (p : Bytes) : Nat := bits (fld p 8 1) 5 4
def Pkt.pri (p : Bytes) : Nat := bits (fld p 9 1) 2 0
def Pkt.tag (p : Bytes) : Nat := fld p 12 4 + fld p 10 2 * 2 ^ 32
def Pkt.payload (p : Bytes) : Nat := fld p 16 6
def Pkt.length (p : Bytes) : Nat := fld p 24 4
def Pkt.arg (p : Bytes) : Nat := fld p 28 4

/-- Build a packet with DIRECT 0 (R84). -/
def mkPkt (quad role epoch seat lane opcount slot pri tag payload length arg : Nat) : Bytes :=
  leB 2 (quad * 0x1000) ++ leB 1 role ++ leB 1 epoch ++ leB 2 seat ++ leB 2 lane ++ leB 1 (opcount + slot * 16) ++ leB 1 pri
    ++ leB 2 (tag / 2 ^ 32) ++ leB 4 tag ++ leB 8 payload ++ leB 4 length ++ leB 4 arg

/-- A reserved bit of R84 is set. -/
def Pkt.reserved (p : Bytes) : Bool :=
  bits (fld p 6 2) 15 10 != 0 || bits (fld p 8 1) 7 6 != 0 || bit (fld p 8 1) 3 || bits (fld p 9 1) 7 3 != 0 || fld p 22 2 != 0

/-- The packet with its entry's index written by the scheduler, as a drill finds it in queue 14 (R90; log entry 91). -/
def Pkt.withIndex (p : Bytes) (i : Nat) : Bytes := patch p 0 (leB 2 (bits (fld p 0 2) 15 12 * 0x1000 + i))

/-! Attendance counters (R100) -/

def Dev.attAdd (d : Dev) (off n : Nat) : Dev := { d with att := { d.att with live := tmod 0 d.att.live off (sat32 · n) } }
def Dev.attMax (d : Dev) (off v : Nat) : Dev :=
  { d with att := { d.att with live := tmod 0 d.att.live off (fun x => max x (min v m32)) } }
def attQ (q off : Nat) : Nat := q * 0x400 + off

/-! The matching store -/

def Task.holds (t : Task) : Bool := t.idx.isSome && t.phase != .finished
/-- Entries in use (QDR_MS_OCC). -/
def QuadSt.occ (x : QuadSt) : Nat := (x.tasks.filter Task.holds).length
/-- Depth of a ready list. -/
def QuadSt.depth (x : QuadSt) (p : Nat) : Nat :=
  (x.tasks.filter (fun t => match t.phase with | .ready r _ => r == p | _ => false)).length
/-- Reorder entries in use (R93). -/
def QuadSt.robOcc (x : QuadSt) : Nat := (x.tasks.filter (·.rob)).length

/-- Scheduler cycle of a quadrant (R88). -/
def Dev.cyc (d : Dev) (q : Nat) : Nat := d.qcyc + (d.quad q).extra

/-- The parameter block of the seat that a task may run on: the one it names, else the first of its role in the quadrant. -/
def Dev.seatBlock (d : Dev) (q : Nat) (t : Task) : Bytes :=
  match d.plt.seats.find? (fun e => e.role == t.role && (if t.seat = 0xFFFF then (denseSeat e.seat).bind seatQuad == some q else e.seat == t.seat)) with
  | some e => e.params
  | none => []

/-- A GATHER task whose read step has not come (R297), a SCATTER task whose tag is too far ahead (R305), a NORM task whose
statistics are not sealed (R44), a probe whose build is not sealed (R232): held as for a missing operand. -/
def Dev.gated (d : Dev) (q : Nat) (t : Task) : Bool :=
  if t.role = 12 ∧ t.tag ≠ BitVec.allOnes 48 then
    decide ((d.step : Int) < (t.tag.toNat : Int) - bits (fld (d.seatBlock q t) 39 1) 2 0)
  else if t.role = 13 then
    let p := d.seatBlock q t
    let id := match tfind t.slots 0 with | some a => d.mnum (Pkt.payload a.pkt) 2 | none => 0
    match (List.range (fld p 0 2)).find? (fun i => fld p (32 + 64 * i) 2 == id) with
    | some i => fld p (32 + 64 * i + 48) 4 != 0
        && decide ((d.step : Int) - bits (fld p (39 + 64 * i) 1) 5 4 + 4 < (t.tag.toNat : Int))
    | none => false
  else if t.role = 5 then d.normWaits (colOps (d.seatBlock q t)) t.tag
  else if t.role = 7 then
    (codeOps 0x41 (colOps (d.seatBlock q t))).any (fun e =>
      e.1.mode % 4 != 1 && !d.buildSealed (joinId e.1) t.tag.toNat (d.joinPerTag (joinId e.1)))
  else false

/-- Account the cycles since the last look: MS_FULL_CYC while a packet is held, LANE_HELD_CYC while a task is. -/
def Dev.accrue (d : Dev) (q : Nat) : Dev :=
  let x := d.quad q
  let c := d.cyc q
  let n := c - x.counted
  let d := if x.held.isEmpty then d else d.attAdd (attQ q 0x28) n
  let d := if x.tasks.any (fun t => t.phase == .held && !d.gated q t) then d.attAdd (attQ q 0x3C) n else d
  d.setQuad q { x with counted := c }

/-- Bring the maxima of R100 up to date. -/
def Dev.noteMax (d : Dev) (q : Nat) : Dev :=
  let x := d.quad q
  let d := d.attMax (attQ q 0x20) x.occ
  (List.range 8).foldl (fun d p => let n := x.depth p; if n = 0 then d else d.attMax (attQ q (p * 4)) n) d

/-! Ingest channels as the scheduler sees them (R159, R177) -/

def ichReg (c off : Nat) : Nat := MEM + 0x30000 + c * 0x100 + off

def Dev.ich (d : Dev) (c : Nat) : IchSt := tget {} d.ichs c
def Dev.setIch (d : Dev) (c : Nat) (x : IchSt) : Dev := { d with ichs := tput d.ichs c x }

/-- The ring-map entry of a channel. -/
def Dev.ichRing (d : Dev) (c : Nat) : Option RingMap := d.plt.ringMap.find? (fun m => m.channel == c)

/-- Tasks of a channel in the matching store (R159). -/
def Dev.ichTasks (d : Dev) (c : Nat) : List Task :=
  match d.ichRing c with
  | some m => (d.quad m.quad).tasks.filter (fun t => t.idx.isSome && t.role == 1 && t.lane == m.lane)
  | none => []

/-- MEM_ICH_[c]_DEPTH (R177). -/
def Dev.ichDepth (d : Dev) (c : Nat) : Nat := ((d.ichTasks c).filter (·.phase.early)).length

/-- The channel's ring is privileged and ASSIST_EN is set (R177). -/
def Dev.assists (d : Dev) (c : Nat) : Bool :=
  (match d.ichRing c with | some m => m.privileged | none => false) && d.rbit (ichReg c 0) 24

/-- DEPTH of a quadrant's channels has changed: above ASSIST_THR.HI their descriptors are diverted, until it is below LO (R177). -/
def Dev.watchDepth (d : Dev) (q : Nat) : Dev :=
  d.ichs.foldl (fun d e =>
    let x := d.ich e.1
    if x.params = [] ∨ x.quad ≠ q then d
    else
      let n := d.ichDepth e.1
      let on := d.assists e.1 && (if x.diverting then decide (d.rf (ichReg e.1 0x2C) 15 0 ≤ n) else decide (d.rf (ichReg e.1 0x2C) 31 16 < n))
      if on = x.diverting then d else d.setIch e.1 { x with diverting := on }) d

/-- Move every complete task at the head of its lane to its ready list (R88 step 2, R92). -/
def promote (gated : Task → Bool) (c : Nat) (blocked : List Nat) : List Task → List Task
  | [] => []
  | t :: r =>
    let t := if t.phase = .held ∧ ¬ t.lane ∈ blocked ∧ !gated t then { t with phase := .ready t.pri c } else t
    t :: promote gated c (if t.phase.early then t.lane :: blocked else blocked) r

/-- The tags that the complete NORM tasks of a quadrant name (R44). -/
def Dev.nameHeld (d : Dev) (q : Nat) : Dev :=
  ((d.quad q).tasks.filter (fun t => t.phase == .held && t.role == 5)).foldl (fun d t => d.nameTags (colOps (d.seatBlock q t)) t.tag) d

def Dev.promote (d : Dev) (q : Nat) : Dev :=
  let d := d.nameHeld q
  let x := d.quad q
  ((d.setQuad q { x with tasks := Machine.promote (d.gated q) (d.cyc q) [] x.tasks }).noteMax q).watchDepth q

/-- What some quadrants' complete tasks waited for may have come. -/
def Dev.promoteAll (d : Dev) : Dev :=
  (List.range 8).foldl (fun d q => if (d.quad q).tasks.any (fun t => t.phase == .held) then (d.accrue q).promote q else d) d

/-- Put a refused packet in a quadrant's lost-and-found queue (R96, R98). -/
def Dev.toLaf (d : Dev) (q : Nat) (a : Arrival) (st : Status) : Dev :=
  let q := match denseSeat (Pkt.seat a.pkt) with | some s => if 1296 ≤ s then 0 else q | none => q
  let ep := match denseSeat (Pkt.seat a.pkt) with | some s => (d.seat s).epoch | none => 0
  let x := d.quad q
  let d := match a.origin with
    | some o => if o.op = 0x48 then d.complete o none st 0 0 else d
    | none => d
  if 1024 ≤ x.laf.length then
    ((d.attAdd (attQ q 0x38) 1).wbit (qdrReg q 4) 2 true).fault (64 + q) q
  else
    let e := a.pkt ++ leB 1 st.code ++ leB 1 ep ++ leB 2 a.sender ++ leB 4 d.step ++ leB 2 d.phase ++ zeros 22
    (d.setQuad q { x with laf := x.laf ++ [e] }).attAdd (attQ q 0x34) 1

/-- Entry index of the n-th free entry, counting up from i. -/
def nthFree (used : List Nat) : Nat → Nat → Nat → Nat
  | 0, i, _ => i
  | f + 1, i, n => if used.contains i then nthFree used f (i + 1) n else if n = 0 then i else nthFree used f (i + 1) (n - 1)

/-- The packet's own fields (R96 check 1). -/
def pktOwn (q : Nat) (p : Bytes) : Bool :=
  !Pkt.reserved p && 1 ≤ Pkt.opcount p && Pkt.opcount p ≤ 4 && Pkt.slot p < Pkt.opcount p && 1 ≤ Pkt.role p && Pkt.role p ≤ 15
    && (Pkt.seat p == 0xFFFF || match denseSeat (Pkt.seat p) with
        | none => false
        | some s => match seatQuad s with | some k => k == q | none => true)

/-- The epoch and role check (R96 check 2). -/
def Dev.pktFresh (d : Dev) (p : Bytes) : Bool :=
  Pkt.seat p == 0xFFFF || match denseSeat (Pkt.seat p) with
    | none => false
    | some s => (d.seat s).epoch == Pkt.epoch p && (d.seat s).role == Pkt.role p

/-- The packet's key is the task's (R85). -/
def Task.keyIs (t : Task) (p : Bytes) : Bool :=
  t.role == Pkt.role p && t.seat == Pkt.seat p && t.epoch == Pkt.epoch p && t.lane == Pkt.lane p && t.tag.toNat == Pkt.tag p
    && t.arg == Pkt.arg p

/-- A packet may fill a slot of the task (R86, R96 check 3). -/
def Task.takes (t : Task) (p : Bytes) : Bool :=
  (tfind t.slots (Pkt.slot p)).isNone && Pkt.slot p < t.opcount && Pkt.opcount p == t.opcount && t.phase == .waiting

/-- Fill a slot; a task whose slots are all filled is complete, at the highest priority among its packets (R85). -/
def Task.fill (t : Task) (a : Arrival) : Task :=
  let t := { t with slots := tput t.slots (Pkt.slot a.pkt) a, pri := max t.pri (Pkt.pri a.pkt) }
  if (List.range t.opcount).all (fun i => (tfind t.slots i).isSome) then { t with phase := .held } else t

/-- A packet that has been written: a TASK_INJECT completes with it (R150). -/
def Dev.written (d : Dev) (a : Arrival) : Dev × Arrival :=
  match a.origin with
  | some o => if o.op = 0x48 then (d.complete o none .ok 0 0, { a with origin := none }) else (d, a)
  | none => (d, a)

/-- A packet meets the matching store (R85 to R87, R96). The flag answers whether it must be held at its port. -/
def Dev.takeIn (d : Dev) (q port : Nat) (a : Arrival) : Dev × Bool :=
  let p := a.pkt
  if !pktOwn q p then (d.toLaf q a .descInvalid, false)
  else if !d.pktFresh p then (d.toLaf q a .staleSeat, false)
  else
    let x := d.quad q
    let hit := if a.own then none
      else if Pkt.direct p then x.tasks.find? (fun t => t.holds && t.idx == some (Pkt.index p))
      else x.tasks.find? (fun t => t.phase == .waiting && t.keyIs p)
    match hit with
    | some t =>
      if t.keyIs p && t.takes p then
        let (d, a) := d.written a
        let x := d.quad q
        ((d.setQuad q { x with tasks := x.tasks.map (fun u => if u.uid = t.uid then u.fill a else u) }).promote q, false)
      else (d.toLaf q a .descInvalid, false)
    | none =>
      if Pkt.direct p then (d.toLaf q a .descInvalid, false)
      else
        let free := 4096 - x.occ
        if free = 0 ∨ (port = 0 ∧ free ≤ d.rf (qdrReg q 8) 12 0) then (d, true)
        else
          let (d, a) := d.written a
          let x := d.quad q
          let used := x.tasks.filterMap (fun t => if t.holds then t.idx else none)
          let i := nthFree used 4096 0 (Config.freePick d.free free % free)
          let t : Task :=
            { uid := x.nextUid, idx := some i, role := Pkt.role p, seat := Pkt.seat p, epoch := Pkt.epoch p
              lane := Pkt.lane p, tag := BitVec.ofNat 48 (Pkt.tag p), arg := Pkt.arg p, opcount := Pkt.opcount p }
          let t := t.fill a
          (({ (d.setQuad q { x with tasks := x.tasks ++ [t], nextUid := x.nextUid + 1 }) with free := d.free + 1 }).promote q,
            false)

/-- A refused descriptor, or a compression job, takes a place in its lane (R149, R153). -/
def Dev.laneItem (d : Dev) (q lane : Nat) (o : Origin) (phase : TaskPhase) (st : Status) (detail result : Nat) : Dev :=
  let x := d.quad q
  let t : Task := { uid := x.nextUid, idx := none, lane, phase, status := st, detail, result, mute := true, origin := some o }
  d.setQuad q { x with tasks := x.tasks ++ [t], nextUid := x.nextUid + 1 }

/-- A packet is accepted at an input port, or held there (R87); a refused descriptor takes its place in its lane (R153). -/
def Dev.accept (d : Dev) (q port : Nat) (a : Arrival) : Dev :=
  let d := d.accrue q
  match a.refused, a.origin with
  | some (st, detail, result), some o => d.laneItem q (Pkt.lane a.pkt) o .finished st detail result
  | _, _ =>
    match d.takeIn q port a with
    | (d, false) => d
    | (d, true) =>
      let x := d.quad q
      (d.setQuad q { x with held := x.held ++ [(port, a)] }).wbit (qdrReg q 4) 1 true

/-- A packet sets out for an input port. -/
def Dev.send (d : Dev) (q port : Nat) (a : Arrival) : Dev :=
  let x := d.quad q
  d.setQuad q { x with inbound := x.inbound ++ [(port, a)] }

/-- The k-th packet on its way to a port, with the packets before it on the way. -/
def nthInbound (port : Nat) : Nat → List (Nat × Arrival) → List (Nat × Arrival) → Option (Arrival × List (Nat × Arrival))
  | _, _, [] => none
  | k, pre, (p, a) :: t =>
    if p = port then
      if k = 0 then some (a, pre) else nthInbound port (k - 1) (pre ++ [(p, a)]) t
    else nthInbound port k (pre ++ [(p, a)]) t

/-- A packet reaches an input port (R88 step 1): the k-th on its way, unless an earlier one of its sender is still on the
way (R11) or is held at the port, which stalls that sender and no other (R87). -/
def Dev.arrive (d : Dev) (q port k : Nat) : Dev :=
  let x := d.quad q
  match nthInbound port k [] x.inbound with
  | none => d
  | some (a, pre) =>
    if (pre ++ x.held).any (fun e => e.1 == port && e.2.sender == a.sender) then d
    else (d.setQuad q { x with inbound := pre ++ x.inbound.drop (pre.length + 1) }).accept q port a

/-- The first of some held packets of a port, in the order held, that goes in: the state after, and the packets still held. -/
def Dev.takeHeld (d : Dev) (q port : Nat) (pre : List (Nat × Arrival)) : List (Nat × Arrival) → Option (Dev × List (Nat × Arrival))
  | [] => none
  | e :: rest =>
    if e.1 = port then
      match d.takeIn q port e.2 with
      | (d', false) => some (d', pre ++ rest)
      | (_, true) => d.takeHeld q port (pre ++ [e]) rest
    else d.takeHeld q port (pre ++ [e]) rest

/-- The packets held at a port are looked at again (R87): the first that may go in goes in. -/
def Dev.readmit (d : Dev) (q port : Nat) : Dev :=
  let d := d.accrue q
  match d.takeHeld q port [] (d.quad q).held with
  | none => d
  | some (d', left) => d'.setQuad q { d'.quad q with held := left }

/-! Dispatch (R88 to R92) -/

/-- A tile's quarantine bit (R78). -/
def Dev.quar (d : Dev) (t : Nat) : Bool := d.rbit (PLT + 0x100 + t / 32 * 4) (t % 32)

/-- A seat is open to dispatch: opened by its seating, its tile not quarantined, its drill not faulted (R77, R78, R110). -/
def Dev.seatOpen (d : Dev) (s : Nat) : Bool :=
  let x := d.seat s
  x.opened && !(s < 1152 && d.quar s) && !(x.drill != 0xFFFF && match seatTutor s with | some t => (d.tutor t).mode == .faulted | none => false)

/-- Room for a task's operands on its drill's queue 14, where the seat has a drill. R90 and R109 do not say what a full queue 14
does; here the seat does not qualify until all the operand packets fit (DESIGN CHOICE, log entry 84). -/
def Dev.offerRoom (d : Dev) (s : Nat) (t : Task) : Bool :=
  (d.seat s).drill == 0xFFFF || match seatTutor s with
    | none => true
    | some u => (tget [] (d.tutor u).queues 14).length + t.slots.length ≤ 8

/-- A seat qualifies for a task of a quadrant (R90, R91). -/
def Dev.qualifies (d : Dev) (q : Nat) (t : Task) (s : Nat) : Bool :=
  let x := d.seat s
  x.role == t.role && d.seatOpen s && (t.seat == 0xFFFF || denseSeat t.seat == some s)
    && (match seatQuad s with
        | some k => k == q && decide (x.slots.length < 2)
        | none => !x.slots.any (fun e => e.1 == q))
    && d.offerRoom s t

/-- Dense seats that a quadrant dispatches to, in ascending index (R90). -/
def quadSeats (q : Nat) : List Nat :=
  (List.range 144).map (· + 144 * q) ++ (List.range 9).map (· + (1152 + 9 * q)) ++ (List.range 9).map (· + (1224 + 9 * q))
    ++ (List.range 6).map (· + 1296)

/-- The seat the rotation of R90 chooses; before a role's first choice the starting point is open (log entry 12). -/
def Dev.chooseSeat (d : Dev) (q : Nat) (t : Task) : Option Nat :=
  let ok := (quadSeats q).filter (d.qualifies q t)
  let last := (tfind (d.quad q).lastSeat t.role).getD (Config.freeNat d.free % 1302)
  match ok.find? (fun s => decide (last < s)) with
  | some s => some s
  | none => ok.head?

/-- An earlier task of the lane is still running when this one is selected (R93). -/
def laneBusy (x : QuadSt) (t : Task) : Bool :=
  x.tasks.any (fun u => u.uid < t.uid && u.lane == t.lane && !u.phase.early && u.phase != .finished)

/-- Ready tasks that entered their list before a cycle, in the order of R89; a compression job (role 255 here) waits for its
engine and no seat. -/
def readyOrder (x : QuadSt) (c : Nat) : List Task :=
  let key (t : Task) : Nat × Nat × Nat := match t.phase with
    | .ready p s => (7 - p, s, t.idx.getD 0)
    | _ => (8, 0, 0)
  let le (a b : Task) : Bool :=
    let x := key a; let y := key b
    x.1 < y.1 || (x.1 == y.1 && (x.2.1 < y.2.1 || (x.2.1 == y.2.1 && x.2.2 ≤ y.2.2)))
  sortBy le (x.tasks.filter (fun t => t.role != 255 && match t.phase with | .ready _ s => decide (s < c) | _ => false))

/-- Bucket of a wait (R101). -/
def waitBucket (w : Nat) : Nat := if w = 0 then 0 else min 31 (Nat.log2 w + 1)

def Dev.updTask (d : Dev) (q uid : Nat) (f : Task → Task) : Dev :=
  let x := d.quad q
  d.setQuad q { x with tasks := x.tasks.map (fun t => if t.uid = uid then f t else t) }

def Dev.task (d : Dev) (q uid : Nat) : Option Task := (d.quad q).tasks.find? (fun t => t.uid == uid)

/-- The running task of a seat: the first of its slots that hardware has started (R90, R91, R109). Slots stand in the order in
which their tasks started, those that a drill has not started yet after them. -/
def Dev.running (d : Dev) (s : Nat) : Option (Nat × Task) :=
  let on := (d.seat s).slots.filterMap (fun e => (d.task e.1 e.2).map (fun t => (e.1, t)))
  on.find? (fun e => e.2.phase == .seated_ || e.2.phase == .worked)

/-- Start the busy clock of a seat when a task begins to run. -/
def Dev.startRun (d : Dev) (s : Nat) : Dev :=
  let x := d.seat s
  match x.runSince, d.running s with
  | none, some _ => d.setSeat s { x with runSince := some (d.now, d.qcyc) }
  | _, _ => d

/-- Put a message in an inbound queue of a tutor (R107). -/
def Dev.toQueue (d : Dev) (t n : Nat) (m : List Word) : Dev :=
  let x := d.tutor t
  d.setTutor t { x with queues := tput x.queues n (tget [] x.queues n ++ [m]) }

/-- Raise an event at a tutor (R106). -/
def Dev.raise (d : Dev) (t n : Nat) : Dev :=
  let x := d.tutor t
  d.setTutor t { x with events := x.events ||| (1#32 <<< n) }

/-- The words of a byte string, eight of them for a packet. -/
def words (b : Bytes) : List Word := (chunk 4 b).map (fun c => BitVec.ofNat 32 (ofLe c))

/-- Select a task for a seat: it goes to the seat, or to its drill's queue 14, each operand packet with the entry's index in its
TASK_ID (R84, R90, R93, R109). -/
def Dev.select (d : Dev) (q : Nat) (t : Task) (s : Nat) : Dev :=
  let c := d.cyc q
  let w := match t.phase with | .ready _ since => c - since - 1 | _ => 0
  let x := d.quad q
  let busy := laneBusy x t
  let seat := d.seat s
  let drill := seat.drill != 0xFFFF && (seatTutor s).isSome
  let d := Dev.watchDepth (q := q) <| d.updTask q t.uid (fun t =>
    { t with
      phase := if drill then .offered else .seated_
      on := s, selStep := d.step, params := seat.params, routes := d.routesFrom (seatRef s), rob := busy })
  let d := if t.role = 6 ∨ t.role = 7 then d.noteJoins seat.params t.tag.toNat else d
  let x := d.quad q
  let d := if (tfind x.lastSeat t.role).isSome then d else { d with free := d.free + 1 }
  let d := d.setQuad q { x with lastSeat := tput x.lastSeat t.role s }
  let d := d.setSeat s { seat with slots := seat.slots ++ [(q, t.uid)] }
  let d := (d.attAdd (attQ q 0x2C) 1).attAdd (attQ q (0x80 + 4 * waitBucket w)) 1
  if drill then
    match seatTutor s with
    | some u => (t.slots.foldl (fun d e => d.toQueue u 14 (words (Pkt.withIndex e.2.pkt (t.idx.getD 0)))) d).raise u 3
    | none => d
  else d.startRun s

/-- Some seat that the quadrant dispatches to holds a task's role (R103); for a task that names its seat, that seat
(DEDUCED, log entry 90). -/
def Dev.roleHeld (d : Dev) (q : Nat) (t : Task) : Bool :=
  (quadSeats q).any (fun s => (d.seat s).role == t.role && (t.seat == 0xFFFF || denseSeat t.seat == some s))

/-- One pass over the ready tasks, selecting up to n (R88 step 4); ROLE_WAIT tells that a task was passed over and no seat of
the quadrant holds its role (R103). -/
def selectPass (q : Nat) : Nat → List Task → Dev → Bool → Dev × Bool
  | 0, _, d, w => (d, w)
  | _, [], d, w => (d, w)
  | n + 1, t :: r, d, w =>
    match d.chooseSeat q t with
    | none => selectPass q (n + 1) r d (w || !d.roleHeld q t)
    | some s =>
      if laneBusy (d.quad q) t && 256 ≤ (d.quad q).robOcc then selectPass q (n + 1) r d w
      else selectPass q n r (d.select q t s) w

/-- One scheduler cycle of selection (R88, R402). -/
def Dev.dispatch (d : Dev) (q : Nat) : Dev :=
  if !d.rbit (qdrReg q 0) 0 || !d.dispatching || d.plt.seating then d
  else
    let x := d.quad q
    let d := (d.setQuad q { x with extra := x.extra + 1 }).accrue q
    let (d, w) := selectPass q 2 (readyOrder (d.quad q) (d.cyc q)) d false
    d.promoteAll.wbit (qdrReg q 4) 0 w

/-- Ageing (R89): a task moves to the tail of the list one priority higher. -/
def Dev.age (d : Dev) (q idx : Nat) : Dev :=
  let lim := max 1 (d.rf (qdrReg q 0xC) 15 0) * 256
  let c := d.cyc q
  let x := d.quad q
  if d.rbit (qdrReg q 0) 1 then
    (d.setQuad q { x with tasks := x.tasks.map (fun t => match t.phase with
      | .ready p since => if t.idx = some idx ∧ p < 7 ∧ lim ≤ c - since then { t with phase := .ready (p + 1) c } else t
      | _ => t) }).noteMax q
  else d

/-! Completion (R93, R100) -/

/-- Close the account of a seat's running task (BUSY_[s], TIL_BUSY_CYC). -/
def Dev.stopRun (d : Dev) (s : Nat) : Dev :=
  let x := d.seat s
  match x.runSince with
  | none => d
  | some (n, c) =>
    let d := (d.setSeat s { x with runSince := none }).attAdd (0x2000 + s * 4) (d.now - n)
    if s < 1152 then d.bump (tilReg s 0x10) (d.qcyc - c) else d

/-- The next of a seat's slots: for a port, the first quadrant after the one last served (R91). -/
def nextSlots (s lastQ : Nat) (l : List (Nat × Nat)) : List (Nat × Nat) :=
  if s < 1296 then l else sortBy (fun a b => (a.1 + 7 - lastQ) % 8 ≤ (b.1 + 7 - lastQ) % 8) l

/-- A seat finishes a task of a quadrant: its results go to the reorder buffer, its slot is free (R90, R93). -/
def Dev.finish (d : Dev) (s q uid : Nat) : Dev :=
  let d := d.stopRun s
  let x := d.seat s
  let left := x.slots.filter (fun e => !(e.1 == q && e.2 == uid))
  let d := d.setSeat s { x with slots := nextSlots s q left, lastQuad := q }
  let d := d.updTask q uid (fun t => { t with phase := .finished })
  let d := d.attAdd (0x3800 + s * 4) 1
  let d := if s < 1152 then d.bump (tilReg s 0xC) else d
  let d := match seatTutor s with | some t => d.raise t 4 | none => d
  (d.startRun s).promote q

/-- What happened to a seat's cluster while a task ran: words that its slate or board corrected, and cycles in which a crossbar
channel lost arbitration (R134, R135). -/
def Dev.countUnit (d : Dev) (s corrected stalls : Nat) : Dev :=
  let d := if corrected = 0 then d
    else if s < 1152 then d.bump (tilReg s 0x14) corrected
    else if s < 1224 then d.bump (cluReg (s - 1152) 0xC) corrected else d
  if stalls = 0 ∨ 1296 ≤ s then d else d.bump (cluReg (seatCluster s) 0x10) stalls

/-- TASK_COMPLETE: the seat's running task of the quadrant, once its work is done. How many words were corrected and how long
channels waited is the command's to say (log entry 20). -/
def Dev.complete1 (d : Dev) (s q corrected stalls : Nat) : Dev :=
  match d.running s with
  | some (k, t) => if k = q ∧ t.phase = .worked then (d.countUnit s corrected stalls).finish s q t.uid else d
  | none => d

/-- The first finished task of a quadrant that no earlier task of its lane keeps (R93). -/
def nextRelease (lanes : List Nat) : List Task → Option Task
  | [] => none
  | t :: r => if t.phase = .finished ∧ !t.released ∧ ¬ t.lane ∈ lanes then some t else nextRelease (t.lane :: lanes) r

/-- Post the completions of a released task's descriptors (R93, R147, R152). -/
def Dev.postTask (d : Dev) (q : Nat) (t : Task) : Dev :=
  let lane := some (q * 1024 + t.lane)
  let d := match t.origin with | some o => d.complete o lane t.status t.detail t.result | none => d
  t.slots.foldl (fun d e => match e.2.origin with
    | some o => d.complete o lane t.status 0 (if t.status = .ok then Pkt.length e.2.pkt else 0)
    | none => d) d

/-! Cancels (R94, R95) -/

/-- Scope of a cancel: 0 TASK by entry, 1 LANE, 2 TAG, 3 ALL. -/
def inScope (scope : Nat) (id : Nat) (tag : Nat) (t : Task) : Bool :=
  t.idx.isSome && match scope with
    | 0 => t.idx == some (bits id 11 0) && t.phase != .finished
    | 1 => t.lane == id
    | 2 => t.tag.toNat == tag
    | _ => true

/-- A task cancelled before selection: it completes in lane order with CANCELLED and sends nothing. -/
def Task.cancel (t : Task) (st : Status) : Task := { t with phase := .finished, idx := none, status := st, mute := true }

/-- A cancel reaches a scheduler (R94, R95): the state after, tasks cancelled, tasks found dispatched. A task that has finished
and whose results are not released yet is counted as neither: it no longer runs (DESIGN CHOICE, log entry 85). -/
def Dev.cancel (d : Dev) (q scope id tag : Nat) : Dev × Nat × Nat :=
  let d := d.accrue q
  let x := d.quad q
  let hit := x.tasks.filter (inScope scope id tag)
  let n := (hit.filter (fun t => t.phase.early)).length
  let late := (hit.filter (fun t => !t.phase.early && t.phase != .finished)).length
  let d := d.setQuad q { x with tasks := x.tasks.map (fun t =>
    if inScope scope id tag t && t.phase.early then t.cancel .cancelled else t) }
  (((d.attAdd (attQ q 0x30) n).bump (qdrReg q 0x40) late).promote q, n, late)

/-! Stale entries (R97, R99) -/

/-- The matching sweep: entries that name a re-seated seat are freed, their packets lost and found (R97). -/
def Dev.sweep (d : Dev) (q : Nat) (seats : List Nat) : Dev :=
  let d := d.accrue q
  let x := d.quad q
  let named (t : Task) : Bool := t.idx.isSome && t.phase.early && t.seat != 0xFFFF
    && match denseSeat t.seat with | some s => seats.contains s | none => false
  let hit := sortBy (fun a b => a.idx.getD 0 ≤ b.idx.getD 0) (x.tasks.filter named)
  let d := d.setQuad q { x with tasks := x.tasks.filter (fun t => !named t) }
  (hit.foldl (fun d t => t.slots.foldl (fun d e => d.toLaf q e.2 .staleSeat) d) d).promote q

/-- The packet of a resubmission (R99). -/
def Dev.resubmitted (d : Dev) (p : Bytes) : Bytes :=
  match denseSeat (Pkt.seat p) with
  | some s =>
    if Pkt.seat p ≠ 0xFFFF ∧ (d.seat s).role = Pkt.role p then patch p 3 (leB 1 (d.seat s).epoch)
    else patch p 4 (leB 2 0xFFFF)
  | none => patch p 4 (leB 2 0xFFFF)

/-- LAF_POST (R99): with LAF_HOST 1 the oldest entry is written to QDR_LAF_RING when it has room (R155). -/
def Dev.lafPost (d : Dev) (q : Nat) : Dev :=
  let x := d.quad q
  let ring := d.rf (qdrReg q 0x10) 13 0
  match x.laf with
  | [] => d
  | e :: rest =>
    if !d.rbit (qdrReg q 0) 2 then d
    else if !(d.ringEn ring && d.ringKind ring == 2) then
      ((d.setQuad q { x with laf := rest }).wn (rngReg ring 0x20) (d.rn (rngReg ring 0x20) + 1)).lost ring
    else if d.ringFull ring then d
    else
      let seq := d.rn (rngReg ring 0x20)
      let step := fld e 36 4
      let hi := (d.step - (d.step + 2 ^ 32 - step) % 2 ^ 32) / 2 ^ 32
      let body := leB 1 2 ++ leB 1 0 ++ leB 2 q ++ leB 4 step ++ leB 2 hi ++ slice e 40 2 ++ leB 4 seq
        ++ padTo 48 (slice e 0 32 ++ slice e 32 1 ++ slice e 33 1 ++ slice e 34 2 ++ slice e 40 2)
      ((d.setQuad q { x with laf := rest }).wn (rngReg ring 0x20) (seq + 1)).writeEvent ring body

end Sys2Proof.Machine
end

