-- ==== Sys2Proof/Machine/FieldBook.lean ====
section
/-! DEFINITION. The field book (R43 to R47, R409), the attendance latches (R100 to R102) and the timetable's own rules
(R31 to R34). -/
namespace Sys2Proof.Machine

/-! Extensions (R237 to R239) -/

/-- The OBSERVE entry that feeds a column, and its seat's parameter block. -/
def Dev.observeEnt (d : Dev) (col : Nat) : Option (Bytes × Bytes) :=
  d.plt.seats.findSome? (fun e =>
    if e.role = 14 then
      (List.range (fld e.params 0 2)).findSome? (fun i =>
        let o := slice e.params (32 + 32 * i) 32
        if fld o 0 1 = 0x50 ∧ bits (fld o 12 4) 12 0 = col ∧ bits (fld o 12 4) 14 13 ≠ 0 then some (o, e.params) else none)
    else none)

/-- Bytes of the histogram part, start of the HLL cells, and the size of a copy (R237), from an OBSERVE entry's P0. -/
def extParts (p0 : Nat) : Nat × Nat × Nat :=
  let e := bits p0 24 16
  let bins := if bit p0 13 then 64 + (e + 1) * 8 else 64
  let cells := upTo bins 64
  (bins, cells, upTo (if bit p0 14 then cells + 4096 else bins) 64)

/-- Address of a column's extension copy: 0 to 3 for its banks, 4 for the standby and 5 for the visible shadow bank. -/
def Dev.extAt (d : Dev) (col copy : Nat) : Option (Nat × Nat) :=
  match tfind d.fb.cols col, d.observeEnt col with
  | some c, some (o, _) =>
    match d.alloc c.extAlloc with
    | some a => some (a.base + copy * (extParts (fld o 12 4)).2.2, fld o 12 4)
    | none => none
  | _, _ => none

/-- The offset that a record gives for its copy: within the board's window. -/
def Dev.extOffset (d : Dev) (col copy : Nat) : Nat :=
  match d.extAt col copy with
  | some (a, _) => (a - BOARD) % 0x800000
  | none => 0

/-- Start an extension copy afresh. -/
def Dev.extInit (d : Dev) (col copy : Nat) : Dev :=
  match d.extAt col copy with
  | some (a, p0) => d.mwrite a (leB 2 (bits p0 14 13) ++ leB 2 (if bit p0 13 then bits p0 24 16 else 0)
      ++ zeros ((extParts p0).2.2 - 4))
  | none => d

/-- Copy one extension copy over another. -/
def Dev.extCopy (d : Dev) (col from_ aim : Nat) : Dev :=
  match d.extAt col from_, d.extAt col aim with
  | some (a, p0), some (b, _) => d.mwrite b (d.mread a (extParts p0).2.2)
  | _, _ => d

/-- Count one value in a column's extensions: its bin, and its hash for the distinct count (R238, R239). -/
def Dev.extCount (d : Dev) (col copy : Nat) (bin : Option Nat) (h : Option (BitVec 64)) : Dev :=
  match d.extAt col copy with
  | none => d
  | some (a, p0) =>
    let d := match bin with
      | some i => if bit p0 13 then d.mwrite (a + 64 + 8 * i) (leB 8 (Nat.min (d.mnum (a + 64 + 8 * i) 8 + 1) (2 ^ 64 - 1))) else d
      | none => d
    match h with
    | some h =>
      if bit p0 14 then
        let cell := a + (extParts p0).2.1 + h.toNat / 2 ^ 52
        let low := h.toNat % 2 ^ 52
        let rank := if low = 0 then 53 else 52 - Nat.log2 low
        if d.mnum cell 1 < rank then d.mwrite cell (leB 1 rank) else d
      else d
    | none => d

/-- The bank record of a tag, begun if it is not there. -/
def Dev.beginBank (d : Dev) (col : Nat) (b : Tag) : FbRec × Dev :=
  match d.bankRec col b with
  | some r => (r, d)
  | none => ({ ext := d.extOffset col (b.toNat % 4) }, d.extInit col (b.toNat % 4))

/-- Observe the values of a column for a tag; a null is none (R43, R46). -/
def Dev.observe (d : Dev) (col unit : Nat) (b : Tag) (vs : List (Option Int)) : Dev :=
  let (r, d) := d.beginBank col b
  let r := vs.foldl (fun r v => match v with | some v => r.add v | none => r.addNull) r
  (d.setBank col b r).bump (cluReg unit 0x808) (vs.filter (·.isSome)).length

/-- Observe values that are no numbers: they are counted only. -/
def Dev.observeCount (d : Dev) (col unit : Nat) (b : Tag) (present nulls : Nat) : Dev :=
  let (r, d) := d.beginBank col b
  (d.setBank col b { r with count := r.count + present, nulls := r.nulls + nulls }).bump (cluReg unit 0x808) present

/-- Columns of a unit and stream. -/
def Dev.fbCols (d : Dev) (unit stream : Nat) : List (Nat × FbCol) :=
  d.fb.cols.filter (fun c => c.2.unit == unit && c.2.stream == stream)

/-- Seal a tag: its records go to the standby bank (R45, R47). An aborted tag takes copies of the newest sealed tag below
it, or of the seed (R409). -/
def Dev.seal (d : Dev) (unit stream : Nat) (b : Tag) (aborted : Bool) : Dev :=
  let x := d.fbTags unit stream
  let below := x.sealed_.find? (fun t => t < b)
  let d := ((d.fbCols unit stream).filter (fun c => !c.2.void.contains b)).foldl (fun d c =>
    let (r, d) : FbRec × Dev :=
      if aborted then
        let from_ := below.bind (fun t => (d.sealedRec c.1 t).map (fun r => (t, r)))
        match from_ with
        | some (t, r) => ({ r with ext := d.extOffset c.1 (b.toNat % 4) }, d.extCopy c.1 (t.toNat % 4) (b.toNat % 4))
        | none => ({ (if below.isSome then (tfind d.fb.standby c.1).getD (seedRec c.2.seed) else seedRec c.2.seed) with
                     ext := d.extOffset c.1 (b.toNat % 4) }, d.extInit c.1 (b.toNat % 4))
      else d.beginBank c.1 b
    let r := { r with tag := b }
    let d := (d.setBank c.1 b r).extCopy c.1 (b.toNat % 4) 4
    { d with fb := { d.fb with
        past := tput d.fb.past c.1 (r :: tget [] d.fb.past c.1)
        standby := tput d.fb.standby c.1 { r with ext := d.extOffset c.1 4 }, changed := true } }) d
  (d.setFbTags unit stream { x with
    opened := x.opened.filter (fun o => o.1 != b), aborted := x.aborted.filter (· != b), sealed_ := b :: x.sealed_ }).bump
      (cluReg unit 0x814)

/-- Seal what may be sealed, in ascending order (R45, R409). The fuel is the number of tags that wait. -/
def sealAll (unit stream : Nat) : Nat → Dev → Dev
  | 0, d => d
  | n + 1, d =>
    let x := d.fbTags unit stream
    let lowOpen := x.opened.head?
    let lowAb := (sortBy (fun (a b : Tag) => a ≤ b) x.aborted).head?
    match lowOpen, lowAb with
    | none, none => d
    | some o, none => if o.2 then sealAll unit stream n (d.seal unit stream o.1 false) else d
    | none, some a => sealAll unit stream n (d.seal unit stream a true)
    | some o, some a =>
      if a ≤ o.1 then sealAll unit stream n (d.seal unit stream a true)
      else if o.2 then sealAll unit stream n (d.seal unit stream o.1 false) else d

/-- TAG_SEAL: the tag's last record has passed (R43, R45). -/
def Dev.tagPassed (d : Dev) (unit stream : Nat) (b : Tag) : Dev :=
  if (d.fbTags unit stream).sealed_.contains b then d
  else
    let d := d.openTagAt unit stream b
    let x := d.fbTags unit stream
    let d := d.setFbTags unit stream { x with opened := x.opened.map (fun o => if o.1 = b then (b, true) else o) }
    sealAll unit stream (x.opened.length + x.aborted.length + 1) d

/-- A tag is aborted at every unit that has columns of its stream (R409); records observed before are discarded. -/
def Dev.abortTag (d : Dev) (b : Tag) : Dev :=
  let us := dedup (d.fb.cols.map (fun c => (c.2.unit, c.2.stream)))
  us.foldl (fun d u =>
    let x := d.fbTags u.1 u.2
    if x.sealed_.contains b then d
    else
      let d := d.setFbTags u.1 u.2 { x with
        opened := x.opened.filter (fun o => o.1 != b), aborted := if x.aborted.contains b then x.aborted else b :: x.aborted }
      { d with fb := { d.fb with banks := (d.fbCols u.1 u.2).foldl (fun t c =>
          if (d.bankRec c.1 b).isSome then tdel t (bankKey c.1 b) else t) d.fb.banks } }) d

/-- The bell's field-book latch (R47). -/
def Dev.fbLatch (d : Dev) : Dev :=
  if d.fb.changed then
    let d := d.fb.standby.foldl (fun d e => d.extCopy e.1 4 5) d
    { d with fb := { d.fb with visible := d.fb.standby.map (fun e => (e.1, { e.2 with ext := d.extOffset e.1 5 })),
                               changed := false, stale := false } }
  else { d with fb := { d.fb with stale := true } }

/-- Greatest tag of the visible bank (FLD_SHADOW_TAG). -/
def Fb.shadowTag (f : Fb) : Nat := f.visible.foldl (fun m e => max m e.2.tag.toNat) 0

/-! Attendance latches (R100, R102) -/

/-- Split every running task's busy time at this moment. -/
def Dev.splitBusy (d : Dev) : Dev :=
  d.seats.foldl (fun d e => match (d.seat e.1).runSince with
    | none => d
    | some _ => let d := d.stopRun e.1; d.setSeat e.1 { d.seat e.1 with runSince := some (d.now, d.qcyc) }) d

/-- The live bank after the latch: counts at zero, maxima at the values in force. -/
def Dev.restartAtt (d : Dev) : Dev :=
  (List.range 8).foldl (fun d q => d.noteMax q) { d with att := { d.att with live := [] } }

/-- A load of a bank is in progress (ATT_STATUS.COPYING, R102): it lasts at most 2,048 timebase cycles. -/
def Dev.loading (d : Dev) (l : Option (Nat × Nat)) : Bool := match l with | some (t, _) => decide (d.now < t + 2048) | none => false

/-- A counter of a bank as it reads (R102): its new value once it is copied, which takes a time that the spec leaves open
(log entry 89). -/
def Dev.bankWord (d : Dev) (l : Option (Nat × Nat)) (old new : Tbl Nat) (off : Nat) : Nat :=
  match l with
  | some (t, n) => tget 0 (if d.loading l && decide (d.now < t + Config.copyTime n off % 2049) then old else new) off
  | none => tget 0 new off

/-- The bell's attendance latch (R100): the shadow bank describes the step that ends. -/
def Dev.attLatch (d : Dev) (ending : Tag) : Dev :=
  let d := (List.range 8).foldl (fun d q => d.accrue q) d
  let d := d.splitBusy
  let d := (List.range 8).foldl (fun d q => d.attMax (attQ q 0x24) (d.quad q).occ) d
  let l := some (d.now, d.free)
  ({ d with att := { d.att with shadow := d.att.live, shadowOld := d.att.shadow, shadowLoad := l, shadowStep := ending }
            free := d.free + 1 }).restartAtt

/-- A snapshot of the live counters (R102). -/
def Dev.snapshot (d : Dev) : Dev :=
  let d := ((List.range 8).foldl (fun d q => d.accrue q) d).splitBusy
  let live := (List.range 8).foldl (fun t q => if (d.quad q).occ = 0 then t else tput t (attQ q 0x24) (d.quad q).occ) d.att.live
  let l := some (d.now, d.free)
  { d with att := { d.att with snap := live, snapOld := d.att.snap, snapLoad := l, snapStep := d.pht.step, snapPhase := d.phase
                               snapValid := true }
           free := d.free + 1 }

/-! The timetable's own rules (R31 to R34, R459) -/

/-- Target a is earlier than step s, modulo 2^48 (R31). -/
def tagEarlier (a s : Tag) : Bool := decide (2 ^ 47 ≤ (a - s).toNat)

def Dev.ttTarget (d : Dev) (n : Nat) : Tag := BitVec.ofNat 48 (d.rn2 (ttbEnt n 12))
def Dev.ttPhase (d : Dev) (n : Nat) : Nat := d.rf (ttbEnt n 0) 31 16
def Dev.ttValid (d : Dev) (n : Nat) : Bool := d.rbit (ttbEnt n 4) 31

/-- Word B after a write (R31, R32): L fields from the value, W1C fields cleared; a reserved ACTION with VALID 1 is refused
for VALID and ACTION. -/
def wordB (old v : Nat) : Nat × Bool :=
  let flags := bits old 29 28 - Nat.land (bits old 29 28) (bits v 29 28)
  let bad := bit v 31 && 0x0A < bits v 23 16
  let valid := if bad then bits old 31 31 else bits v 31 31
  let action := if bad then bits old 23 16 else bits v 23 16
  (at_ valid 31 + at_ (bits v 30 30) 30 + at_ flags 28 + at_ action 16 + at_ (bits v 15 8) 8, bad)

/-- Write word B; the flag tells that the entry has been armed (R31). -/
def Dev.writeB (d : Dev) (n v : Nat) : Dev × Bool :=
  let old := d.rn (ttbEnt n 4)
  let (w, bad) := wordB old v
  let d := d.wn (ttbEnt n 4) w
  let d := if bad then d.wbit (TTB + 4) 1 true else d
  if bit w 31 && !bit old 31 then
    let ofs := sx 16 (d.rf (ttbEnt n 0) 15 0)
    (d.wn2 (ttbEnt n 12) (d.pht.step + BitVec.ofInt 48 ofs).toNat, true)
  else (d, false)

/-- An armed entry is due late (R34, R459): its target has passed, or is now with its phase reached. -/
def Dev.ttDue (d : Dev) (n : Nat) : Bool :=
  d.ttValid n && (tagEarlier (d.ttTarget n) d.pht.step || (d.ttTarget n == d.pht.step && decide (d.ttPhase n ≤ d.phase)))

/-- The entry fires now on time (R29, R33). -/
def Dev.ttOnTime (d : Dev) (n : Nat) : Bool :=
  d.rbit TTB 31 && d.ttValid n && d.ttTarget n == d.pht.step && decide (d.ttPhase n ≤ d.phase)

/-- Steps to the next target of a series that can still fire on time, after a late firing (R34): how many targets on. -/
def lateNext (t step : Tag) (per : Nat) (phaseOk : Bool) : Nat :=
  let diff := (step - t).toNat
  let k := max 1 (ceilDiv diff per)
  if k * per = diff ∧ !phaseOk then k + 1 else k

/-- What a firing does to its entry (R31, R33, R34). -/
def Dev.ttFired (d : Dev) (n : Nat) (late atBell : Bool) : Dev :=
  let b := ttbEnt n 4
  let per := d.rf b 15 8 + 1
  let t := d.ttTarget n
  let d := d.wbit b 28 true
  let d := if late then (d.wbit b 29 true).bump (TTB + 8) else d
  if !d.rbit b 30 then d.wbit b 31 false
  else if late then
    let k := lateNext t d.pht.step per (atBell || decide (d.phase < d.ttPhase n))
    (d.wn2 (ttbEnt n 12) (t + BitVec.ofNat 48 (k * per)).toNat).bump (TTB + 0xC) (k - 1)
  else d.wn2 (ttbEnt n 12) (t + BitVec.ofNat 48 per).toNat

end Sys2Proof.Machine
end

