-- ==== Sys2Proof/Machine/Slots.lean ====
section
/-! DEFINITION. Output slots of allocations: rotation, and which are free (R62, R162, R382). -/
namespace Sys2Proof.Machine

/-- Addresses of data that packets, tasks, results, emissions and deliveries still refer to. -/
def Dev.taskRefs (d : Dev) : List Nat :=
  d.quads.flatMap (fun e =>
    (e.2.tasks.flatMap (fun t => t.slots.map (fun s => Pkt.payload s.2.pkt) ++ t.results.map (·.payload)))
    ++ (e.2.inbound.filter (·.2.refused.isNone)).map (fun i => Pkt.payload i.2.pkt) ++ e.2.held.map (fun h => Pkt.payload h.2.pkt)
    ++ e.2.laf.map (fun l => Pkt.payload (slice l 0 32)))

def Dev.emitRefs (d : Dev) : List Nat :=
  (d.emits.flatMap (fun e => e.2.batches.flatMap (fun b => b.slot :: (match b.packed with | some p => [p.1] | none => []))
    ++ (match e.2.cur with | some c => c.slots | none => [])))
  ++ (d.host.deliveries.filterMap (fun x => if x.length = 0 then none else some x.addr))
/-- Slots of open batches, of closed ones not sent yet, of replay windows, and of receive messages in progress. -/
def Dev.otherRefs (d : Dev) : List Nat :=
  d.ichs.flatMap (fun e =>
    (match e.2.openB with | some b => [b.slot] | none => []) ++ (match e.2.work with | some w => w.results.map (·.payload) | none => [])
    ++ e.2.front.map (·.slot) ++ e.2.back.map (·.slot))
  ++ d.qps.filterMap (fun e => match e.2.msg with | some (a, _, true) => some a | _ => none)

def Dev.refs (d : Dev) : List Nat := d.taskRefs ++ d.emitRefs ++ d.otherRefs

/-- The first free slot of an allocation, from the rotation pointer on. -/
def Dev.nextSlot (d : Dev) (allocId slotBytes : Nat) : Option Nat :=
  match d.alloc allocId with
  | none => none
  | some a =>
    let n := a.size / slotBytes
    let start := tget 0 d.plt.rotate allocId
    let refs := d.refs
    (firstWhere (fun k =>
      let lo := a.base + (start + k) % n * slotBytes
      !refs.any (fun r => lo ≤ r && r < lo + slotBytes)) n 0).map (fun k => (start + k) % n)

/-- Take a slot: its address, and the rotation moved past it. -/
def Dev.takeSlot (d : Dev) (allocId slotBytes : Nat) : Option (Nat × Dev) :=
  match d.alloc allocId, d.nextSlot allocId slotBytes with
  | some a, some k =>
    some (a.base + k * slotBytes, { d with plt := { d.plt with rotate := tput d.plt.rotate allocId ((k + 1) % (a.size / slotBytes)) } })
  | _, _ => none

end Sys2Proof.Machine
end

