-- ==== Sys2Proof/Machine/Fabric.lean ====
section
/-! DEFINITION. The Miohar fabric: training, flit groups and retry, credits, routing, messages, fences, bells and the
station table (R360 to R394). -/
namespace Sys2Proof.Machine

/-! Flits (R372) -/

def Flit.kind (f : Bytes) : Nat := bits (fld f 0 1) 3 0
def Flit.tc (f : Bytes) : Nat := bits (fld f 0 1) 5 4
def Flit.first (f : Bytes) : Bool := bit (fld f 0 1) 6
def Flit.last (f : Bytes) : Bool := bit (fld f 0 1) 7
def Flit.dest (f : Bytes) : Nat := bits (fld f 2 2) 10 0
def Flit.src (f : Bytes) : Nat := bits (fld f 4 2) 10 0
def Flit.gen (f : Bytes) : Nat := fld f 6 1
def Flit.flags (f : Bytes) : Nat := fld f 7 1
def Flit.vc (f : Bytes) : Nat := bits (Flit.flags f) 4 3
def Flit.abort (f : Bytes) : Bool := bit (Flit.flags f) 5
def Flit.hops (f : Bytes) : Nat := bits (fld f 8 1) 6 0
/-- Set the VC and the hop count of a flit. -/
def Flit.onLink (f : Bytes) (vc hops : Nat) : Bytes :=
  let fl := Flit.flags f - Flit.vc f * 8 + vc * 8
  let f := patch f 7 (leB 1 fl)
  if Flit.first f then patch f 8 (leB 1 hops) else f

/-- A flit of 256 bytes. -/
def mkFlit (kind tc : Nat) (first last : Bool) (dest src gen flags cls msg len : Nat) (payload : Bytes) : Bytes :=
  leB 1 (kind + tc * 16 + b2n first * 64 + b2n last * 128) ++ zeros 1 ++ leB 2 dest ++ leB 2 src ++ leB 1 gen ++ leB 1 flags
    ++ zeros 1 ++ leB 1 cls ++ leB 2 msg ++ leB 4 len ++ padTo 240 (payload.take 240)

def idleFlit : Bytes := zeros 256

/-- BELL, RING, FENCE and PARAM flits are control flits (R373). -/
def Flit.control (f : Bytes) : Bool := 2 ≤ Flit.kind f

/-! Sending on a port (R364, R365, R373) -/

def creditKey (f : Bytes) : Nat := Flit.tc f * 4 + Flit.vc f

/-- A flit may go now: control flits always, DATA flits with a credit. -/
def PortSt.hasCredit (x : PortSt) (f : Bytes) : Bool := Flit.control f || 0 < tget 64 x.credits (creditKey f)

/-- A control flit that may go now: they overtake DATA flits (R373), but a FENCE stays behind what was queued before it
(R379). -/
def PortSt.controlFlit (x : PortSt) : Option Bytes :=
  match x.queue.find? (fun f => Flit.control f && Flit.kind f != 4) with
  | some f => some f
  | none => x.queue.head?.filter Flit.control

/-- The flit to send next: control flits first, then by the weighted round of the TCs (R373). -/
def PortSt.pick (x : PortSt) (weights : Nat) : Option (Bytes × PortSt) :=
  match x.controlFlit with
  | some f => some (f, { x with queue := x.queue.erase f })
  | none =>
    let head (tc : Nat) : Option Bytes := match x.queue.find? (fun f => Flit.tc f == tc) with
      | some f => if x.hasCredit f then some f else none
      | none => none
    let ready := (List.range 4).filter (fun tc => (head tc).isSome)
    let left (t : Tbl Nat) (tc : Nat) : Nat := tget 0 t tc
    let turn := if ready.any (fun tc => 0 < left x.turn tc) then x.turn
      else (List.range 4).map (fun tc => (tc, max 1 (bits weights (8 * tc + 7) (8 * tc))))
    match ready.find? (fun tc => 0 < left turn tc) with
    | some tc => match head tc with
      | some f => some (f, { x with queue := x.queue.erase f, turn := tput turn tc (left turn tc - 1)
                                    credits := tmod 64 x.credits (creditKey f) (· - 1) })
      | none => none
    | none => none

/-- Write the first credits owed into a flit's header (R373), but for TCs whose credits are withheld (R382). -/
def PortSt.returnCredit (x : PortSt) (held : List Nat) (f : Bytes) : Bytes × PortSt :=
  match x.owed.find? (fun e => decide (0 < e.2) && !held.contains (e.1 / 4)) with
  | some (k, n) =>
    let c := min n 15
    (patch f 1 (leB 1 (k / 4 + k % 4 * 4 + c * 16)), { x with owed := tput x.owed k (n - c) })
  | none => (f, x)

/-- Up to n flits for one group. -/
def takeFlits (weights : Nat) (held : List Nat) : Nat → PortSt → List Bytes → List Bytes × PortSt
  | 0, x, acc => (acc, x)
  | n + 1, x, acc =>
    match x.pick weights with
    | some (f, x) => let (f, x) := x.returnCredit held f; takeFlits weights held n x (acc ++ [f])
    | none => (acc, x)

/-- IDLE flits that fill a group up: they carry credits too (R373). -/
def fillIdle (held : List Nat) : Nat → PortSt → List Bytes → List Bytes × PortSt
  | 0, x, acc => (acc, x)
  | n + 1, x, acc => let (f, x) := x.returnCredit held idleFlit; fillIdle held n x (acc ++ [f])

/-- TCs whose credits are withheld: a TASK message of theirs finds no free landing slot (R382). -/
def Dev.withheld (d : Dev) : List Nat :=
  let a := d.rn (LNK + 0x20)
  if (d.alloc a).isNone ∨ (d.nextSlot a (d.rn (LNK + 0x24))).isSome then []
  else (d.fab.inbox.filter (fun m => m.cls == 0)).map (·.tc)

/-- Send a group with a number and flits (R364): its header acknowledges the last group received in order. -/
def Dev.sendGroup (d : Dev) (p kind gseq : Nat) (flits : List Bytes) : Dev :=
  let x := d.port p
  let ack := (x.rxSeq + 4095) % 4096
  let l := x.line (groupHeader gseq ack kind) flits
  (d.setPort p l.2).emit (.group p kind gseq ack flits l.1)

/-- Send a new group: the flits that may go, filled up with IDLE flits; it enters the retry buffer (R365). -/
def Dev.newGroup (d : Dev) (p kind : Nat) : Dev :=
  let held := d.withheld
  let (fs, x) := takeFlits (d.rn (LNK + 0x1C)) held 5 (d.port p) []
  let (g, x) := fillIdle held (5 - fs.length) x fs
  let d := (d.setPort p { x with retry := x.retry ++ [(x.txSeq, g)], txSeq := (x.txSeq + 1) % 4096 }).sendGroup p kind x.txSeq g
  d.bump (prtReg p 0x28) fs.length

/-- The port is ACTIVE and its retry buffer of 1,024 groups has room (R365). -/
def PortSt.open_ (x : PortSt) : Bool := x.state == 5 && decide (x.retry.length < 1024)

/-- Send groups while the port may and a flit may go. The fuel is the queue's length. -/
def Dev.pumpN (d : Dev) (p : Nat) : Nat → Dev
  | 0 => d
  | n + 1 => if (d.port p).open_ && ((d.port p).pick (d.rn (LNK + 0x1C))).isSome then (d.newGroup p 0).pumpN p n else d

def Dev.pump (d : Dev) (p : Nat) : Dev := d.pumpN p (d.port p).queue.length

/-- Send what may go, or one idle group where none may and there is news for the partner: of the idle groups that a link sends all
the time the model sends those (log entry 103). -/
def Dev.answer (d : Dev) (p : Nat) (news : Bool) : Dev :=
  let e := d.pump p
  if news && e.fab.ports == d.fab.ports && (e.port p).open_ then e.newGroup p 0 else e

/-- The link is up, no flit may go and one is kept back for want of a credit (CRED_STALL, R393). -/
def PortSt.starved (x : PortSt) (weights : Nat) : Bool := x.open_ && !x.queue.isEmpty && (x.pick weights).isNone

/-- Queue a flit on a port and send what may go. -/
def Dev.queueFlit (d : Dev) (p : Nat) (f : Bytes) : Dev :=
  let x := d.port p
  (d.setPort p { x with queue := x.queue ++ [f] }).pump p

/-- Send a control flit on every ACTIVE port but one. -/
def Dev.flood (d : Dev) (but : Option Nat) (f : Bytes) : Dev :=
  (List.range 4).foldl (fun d p => if (d.port p).state = 5 ∧ but ≠ some p then d.queueFlit p f else d) d

/-! Routing (R374 to R376) -/

def Dev.station (d : Dev) : Nat := d.rf (LNK + 8) 10 0
def Dev.rows (d : Dev) : Nat := d.rf (LNK + 0xC) 5 0
def Dev.cols (d : Dev) : Nat := d.rf (LNK + 0xC) 15 8
def Dev.lnkGen (d : Dev) : Nat := d.rf (LNK + 0x14) 7 0
/-- The station-table entry of a station; the own entry is 0x8000 (R377). -/
def Dev.stEntry (d : Dev) (s : Nat) : Nat := if s = d.station then 0x8000 else d.rf (LNK + 0x10000 + s * 4) 15 0

/-- The port that a flit to D leaves by (R376): none where the table gives no direction. -/
def Dev.outPort (d : Dev) (dest : Nat) (colFirst : Bool) : Option Nat :=
  let x := d.station
  let row (s : Nat) := s / 64
  let col (s : Nat) := s % 64
  let rowPhase := if colFirst then row x == row dest else col x != col dest
  let k := if rowPhase then row x * 64 + col dest else row dest * 64 + col x
  let e := d.stEntry k
  let dir := if rowPhase then bits e 13 12 else bits e 11 10
  if dir = 1 then some (if rowPhase then 0 else 2)
  else if dir = 2 then some (if rowPhase then 1 else 3)
  else none

/-- Whether the link of a port crosses its ring's dateline (R374). -/
def Dev.crosses (d : Dev) (p : Nat) : Bool :=
  let coord (s : Nat) := if p < 2 then s % 64 else s / 64
  let n := if p < 2 then d.cols else d.rows
  let me := coord d.station
  let other := match (d.port p).partner with
    | some (s, _, _) => coord s
    | none => if p % 2 = 0 then (me + 1) % n else (me + n - 1) % n
  if p % 2 = 0 then other ≤ me else me ≤ other

/-- Put a flit on its way out of a port: VC and hops of the link it crosses (R374, R376). -/
def Dev.forwardTo (d : Dev) (inPort : Option Nat) (p : Nat) (colFirst : Bool) (f : Bytes) : Dev :=
  let sameAxis := match inPort with | some i => i / 2 == p / 2 | none => false
  let dl := (sameAxis && bit (Flit.vc f) 0) || d.crosses p
  let vc := 2 * b2n colFirst + b2n dl
  -- A flit without FIRST crosses the link in the VC of its message.
  let vc := if Flit.first f then vc else tget vc d.fab.outVc (p * 4 + Flit.tc f)
  let d := { d with fab := { d.fab with outVc := tput d.fab.outVc (p * 4 + Flit.tc f) vc } }
  d.queueFlit p (Flit.onLink f vc (Flit.hops f + 1))

/-! Injecting messages (R376, R381, R384) -/

/-- Flits of a message after the first. -/
def restFlits (tc vcFlags : Nat) : List Bytes → List Bytes
  | [] => []
  | [b] => [mkFlit 1 tc false true 0 0 0 vcFlags 0 0 0 b]
  | b :: t => mkFlit 1 tc false false 0 0 0 vcFlags 0 0 0 b :: restFlits tc vcFlags t

/-- Why a send ends at once (R56, R384): the destination is unreachable or its first port is seated IDLE. -/
def Dev.sendable (d : Dev) (dest : Nat) : Option Nat :=
  let e := d.stEntry dest
  if !d.rbit LNK 31 || !bit e 15 || dest = d.station then none
  else match d.outPort dest (bit e 14) with
    | some p => if (d.seat (1296 + p)).role = 15 then some p else none
    | none => none

/-- Send a message of a class. Answers the MSG_ID, or none where nothing is sent (LNK_UNREACH counts it). -/
def Dev.sendMessage (d : Dev) (dest cls tc msg : Nat) (ackReq : Bool) (data : Bytes) : Option Dev × Dev :=
  match d.sendable dest with
  | none => (none, d.bump (LNK + 0x3C))
  | some p =>
    let colFirst := bit (d.stEntry dest) 14
    let await_ := match tfind d.fab.awaits dest with | some u => decide (d.now < u) | none => false
    let parts := match chunk 240 data with | [] => [[]] | l => l
    let vc := 16 * b2n colFirst
    let flags := b2n await_ + 2 * b2n colFirst + 4 * b2n ackReq + vc
    let first := mkFlit 1 tc true (parts.length == 1) dest d.station d.lnkGen flags cls msg data.length (parts.headD [])
    let fs := first :: restFlits tc vc parts.tail
    -- A message of the TC under way on the port is not broken into (R373): ours waits its turn with the flits in transit.
    let busy := (tfind d.fab.locks (p * 4 + tc)).isSome || d.fab.arrived.any (fun e => e.1 == 4 && Flit.tc e.2 == tc)
    let d' := if busy then { d with fab := { d.fab with arrived := d.fab.arrived ++ fs.map (fun f => (4, f)) } }
      else fs.foldl (fun d f => d.forwardTo none p colFirst f) d
    (some (d'.bump (LNK + 0x28)), d)

/-- Send a TASK or READ_REQ and wait for its answer; none where nothing is sent. -/
def Dev.sendWaiting (d : Dev) (dest cls tc : Nat) (data : Bytes) (why : OutKind) : Option (Nat × Dev) × Dev :=
  let id := d.fab.nextMsg
  match d.sendMessage dest cls tc id (cls == 0) data with
  | (some d', _) =>
    (some (id, { d' with fab := { d'.fab with nextMsg := (id + 1) % 65536, waits := d'.fab.waits ++ [(id, why, d.now)] } }), d)
  | (none, d') => (none, d')

/-! Link-state records of this station (R390) -/

/-- What a RING flit says of one port. -/
def PortSt.ringField (x : PortSt) : Bytes :=
  let (s, q) := match x.partner with | some (s, q, _) => (s, q) | none => (0, 0)
  leB 1 x.state ++ leB 1 x.width ++ leB 2 s ++ leB 1 q ++ zeros 3

/-- The payload of a RING flit of this station, from byte 16 on. -/
def Dev.ringRecord (d : Dev) (seq : Nat) : Bytes :=
  leB 2 d.station ++ zeros 2 ++ leB 4 seq ++ leB 1 d.lnkGen ++ leB 1 (b2n d.fab.rowClosed + 2 * b2n d.fab.colClosed) ++ zeros 2
    ++ (List.range 4).flatMap (fun p => (d.port p).ringField)

def ringFlitBytes (origin : Nat) (payload : Bytes) : Bytes := mkFlit 3 0 true true 0x7FF origin 0 0 0 0 0 payload

/-- Flood the own link-state record (R390): what the supplied ring manager sends is the station's (log entry 103). -/
def Dev.floodState (d : Dev) : Dev :=
  if !d.rbit LNK 31 then d
  else
    let n := (d.fab.ringSeq + 1) % 2 ^ 32
    let rec_ := d.ringRecord n
    ({ d with fab := { d.fab with ringSeq := n, ringAt := d.now, rings := tput d.fab.rings d.station n
                                  ringDb := tput d.fab.ringDb d.station rec_ } }).flood none (ringFlitBytes d.station rec_)

/-! Port states (R366) -/

/-- A port enters a state: its station floods a record of it (R390). -/
def Dev.enterState (d : Dev) (p st : Nat) (x : PortSt) : Dev := (d.setPort p { x with state := st, since := d.now }).floodState

/-- LINK_CHG and the LINK event to the port's tutor (R106, R393). -/
def Dev.linkChg (d : Dev) (p : Nat) : Dev := ((d.wbit (prtReg p 4) 13 true).fault (44 + p) p).raise (1232 + p) 6

/-- A message arriving on a port that goes down ends with one DATA flit that has LAST and ABORT (R388): it goes behind the flits
that have arrived, and on to the next station or into LNK_PARTIAL with them. -/
def Dev.endInbound (d : Dev) (p : Nat) : Dev :=
  (List.range 4).foldl (fun d tc =>
    let unended := match (d.fab.arrived.filter (fun e => e.1 == p && Flit.tc e.2 == tc)).getLast? with
      | some e => !Flit.last e.2
      | none => (tfind d.fab.paths (p * 4 + tc)).isSome
    if unended then { d with fab := { d.fab with arrived := d.fab.arrived ++ [(p, mkFlit 1 tc false true 0 0 0 0x20 0 0 0 [])] } }
    else d) d

/-- Leave for DETECT, through RETRAIN or by a failed state (R366): RETRAINS counts it. -/
def Dev.toDetect (d : Dev) (p : Nat) : Dev :=
  let x := d.port p
  let was := x.state
  let d := d.enterState p 1 { x with lanes := [], offer := none, width := 0, paramRec := [], paramCount := 0, episode := false, naks := 0 }
  let d := d.bump (prtReg p 0x1C)
  if was = 5 then (d.endInbound p).linkChg p else d

/-- EN of a port or of the station changes (R366, R386). -/
def Dev.portEnable (d : Dev) (p : Nat) : Dev :=
  let on := d.rbit (prtReg p 0) 0
  let x := d.port p
  if on then (if x.state = 0 ∧ d.flt.stage < 2 then d.enterState p 1 x else d)
  else
    let d := if x.state = 5 then (d.endInbound p).linkChg p else d
    d.enterState p 0 { d.port p with width := 0, lanes := [], offer := none }

/-! Training (R367 to R371) -/

/-- One step of a cursor under its limit: new magnitude and result (R368). -/
def cursorStep (v limit req : Nat) : Nat × Nat :=
  if req = 1 then (if v + 1 ≤ limit then (v + 1, 1) else (v, 2))
  else if req = 2 then (if 1 ≤ v then (v - 1, 1) else (v, 2))
  else (v, 0)

/-- The partner's request on a lane (R368): a preset, or a step of one cursor; the answer goes into STEP_ACK. A request is held
over many frames and answered once; hold ends it. -/
def LaneSt.request (l : LaneSt) (preset step : Nat) : LaneSt :=
  let hold : Bool := decide (15 < preset) && bits step 1 0 == 0 && bits step 5 4 == 0
  if hold then { l with asked := false }
  else if l.asked then l
  else if preset ≤ 15 then { l with pre := 2 * (preset % 4), post := 6 * (preset / 4), stepAck := 0x40, asked := true }
  else
    let a := cursorStep l.pre 12 (bits step 1 0)
    let b := cursorStep l.post 24 (bits step 5 4)
    { l with pre := a.1, post := b.1, stepAck := a.2 + b.2 * 16, asked := true }

/-- Our WIDTH_OFFER from the lane tests (R369): none until every lane is tested. -/
def PortSt.ownOffer (x : PortSt) : Option Nat :=
  let ok := (List.range 8).map (fun i => (tget {} x.lanes i).ok)
  if ok.all (·.isSome) then
    let lo := (ok.take 4).all (· == some true)
    let hi := (ok.drop 4).all (· == some true)
    some (b2n (lo && hi) + 2 * b2n lo + 4 * b2n hi)
  else none

/-- The width both sides compute (R369): 0 none, 1 x8, 2 lanes 0 to 3, 3 lanes 4 to 7. -/
def widthChoice (a b : Nat) : Nat :=
  if bit a 0 && bit b 0 then 1 else if bit a 1 && bit b 1 then 2 else if bit a 2 && bit b 2 then 3 else 0

/-- Our PARAM record (R370). -/
def Dev.paramRecord (d : Dev) (p : Nat) (seen : Bool) : Bytes :=
  let x := d.port p
  leB 2 0xA6F0 ++ leB 1 1 ++ leB 1 (b2n seen + x.width * 2 + x.half * 8) ++ leB 2 d.station ++ leB 1 p
    ++ leB 1 (d.rows - 1) ++ leB 1 (d.cols - 1) ++ zeros 3 ++ leB 4 (d.rn (LNK + 0x10)) ++ leB 4 (d.rn (LNK + 0x24)) ++ zeros 12

/-- Send a PARAM record (R370) in a group of its own; the groups of PARAM are numbered from 0 (R366). The record repeats whenever the
model has something new to say (log entry 103). -/
def Dev.sendParam (d : Dev) (p : Nat) (seen : Bool) : Dev :=
  let x := d.port p
  (d.setPort p { x with paramSeq := (x.paramSeq + 1) % 4096 }).sendGroup p 0 x.paramSeq
    (mkFlit 5 0 true true 0 d.station d.lnkGen 0 0 0 0 (d.paramRecord p seen) :: List.replicate 4 idleFlit)

/-- Move on from ALIGN when both offers are known and the partner agrees (R369). -/
def Dev.alignNext (d : Dev) (p : Nat) : Dev :=
  let x := d.port p
  match x.ownOffer, x.offer with
  | some a, some b =>
    let c := widthChoice a b
    if c = 0 then d.toDetect p
    else
      let set := if c = 1 then List.range 8 else if c = 2 then List.range 4 else [4, 5, 6, 7]
      if set.all (fun i => 16 ≤ (tget {} x.lanes i).choiceFrames) then
        (d.enterState p 4 { x with width := if c = 1 then 2 else 1, half := if c = 3 then 1 else 0, sinceMark := 0, paramSeq := 0
                                   paramRec := [], paramCount := 0 }).sendParam p false
      else d
  | _, _ => d

/-- TRAINING_FRAME (R367 to R369): the alignment marker and the control symbols of a received frame. Our own EQ_DONE is set at
once: a receiver of the model asks its partner for nothing (log entry 103). -/
def Dev.trainFrame (d : Dev) (p lane : Nat) (marks control : List Nat) : Dev :=
  let x := d.port p
  match controlBytes control with
  | none => d
  | some c =>
    if x.state = 2 then
      let l := tget {} x.lanes lane
      let l := l.request (fld c 2 1) (fld c 3 1)
      let l := { l with eqFrames := if bit (fld c 5 1) 0 then l.eqFrames + 1 else 0 }
      let x := { x with lanes := tput x.lanes lane l }
      let done := (List.range 8).all (fun i => 16 ≤ (tget {} x.lanes i).eqFrames)
      if done then d.enterState p 3 x else d.setPort p x
    else if x.state = 3 then
      let l := tget {} x.lanes lane
      let x := { x with offer := if fld c 0 1 = 3 then some (bits (fld c 6 1) 2 0) else x.offer }
      let own := match x.ownOffer, x.offer with | some a, some b => widthChoice a b | _, _ => 0
      let l := { l with choiceFrames := if own ≠ 0 ∧ fld c 7 1 = own then l.choiceFrames + 1 else 0
                        locked := l.locked || marks == laneMarker lane 0x155 }
      (d.setPort p { x with lanes := tput x.lanes lane l }).alignNext p
    else d

/-- Control bytes of the training frames we send on a lane (R367): hold, our answer, our flags, offer and choice. -/
def Dev.ownControl (d : Dev) (p lane : Nat) : Bytes :=
  let x := d.port p
  let l := tget {} x.lanes lane
  let own := match x.ownOffer, x.offer with | some a, some b => widthChoice a b | _, _ => 0
  let c := leB 1 x.state ++ leB 1 lane ++ leB 1 0xFF ++ leB 1 0 ++ leB 1 l.stepAck ++ leB 1 (1 + 2 * b2n (l.ok == some true))
    ++ leB 1 (x.ownOffer.getD 0) ++ leB 1 own ++ leB 2 d.station ++ zeros 5
  c ++ [crc8 c]

/-- Send one training frame on a lane; its fill goes on in the lane's PRBS31 (R367). -/
def Dev.sendFrame (d : Dev) (p lane : Nat) : Dev :=
  let x := d.port p
  let l := tget {} x.lanes lane
  let f := prbs31 160 l.prbs
  (d.setPort p { x with lanes := tput x.lanes lane { l with prbs := f.2 } }).emit
    (.training p lane (trainingSymbols lane (d.ownControl p lane) f.1))

/-- What a port does by itself in a timebase cycle: it sends training frames in EQUALISE and ALIGN (one a lane, log entry 103), and
counts the cycles without a credit (R393). -/
def Dev.portCycle (d : Dev) (p : Nat) : Dev :=
  let x := d.port p
  if x.state = 2 ∨ x.state = 3 then (List.range 8).foldl (fun d lane => d.sendFrame p lane) d
  else if x.starved (d.rn (LNK + 0x1C)) then
    let r := Config.portRate (1232 + p)
    d.bump (prtReg p 0x24) (d.now * r / 65536 - (d.now - 1) * r / 65536)
  else d

/-- The fabric in one timebase cycle: its ports, and a link-state record every 100 ms (R390). -/
def Dev.fabricCycle (d : Dev) : Dev :=
  let d := (d.fab.ports.map (·.1)).foldl (fun d p => d.portCycle p) d
  if d.rbit LNK 31 && decide (40000000 ≤ d.now - d.fab.ringAt) then d.floodState else d

/-- PRBS_TEST_END (R369): a locked lane passes with fewer than 16 symbol errors. -/
def Dev.prbsEnd (d : Dev) (p : Nat) (errors : List Nat) : Dev :=
  let x := d.port p
  if x.state ≠ 3 then d
  else
    let lanes := (List.range 8).foldl (fun t i =>
      let l := tget {} t i
      tput t i { l with ok := some (l.locked && decide (errors.getD i 0 < 16)) }) x.lanes
    (d.setPort p { x with lanes }).alignNext p

/-- Distance of a station along a port's direction, on the port's axis; none off the axis. -/
def Dev.away (d : Dev) (p s : Nat) : Option Nat :=
  let me := d.station
  if p < 2 then
    if s / 64 = me / 64 then some (if p = 0 then (s % 64 + d.cols - me % 64) % d.cols else (me % 64 + d.cols - s % 64) % d.cols) else none
  else
    if s % 64 = me % 64 then some (if p = 2 then (s / 64 + d.rows - me / 64) % d.rows else (me / 64 + d.rows - s / 64) % d.rows) else none

/-- The checks of R370 on a PARAM record. -/
def Dev.paramOk (d : Dev) (p : Nat) (r : Bytes) : Bool :=
  fld r 12 4 == d.rn (LNK + 0x10) && bits (fld r 7 1) 4 0 + 1 == d.rows && bits (fld r 8 1) 5 0 + 1 == d.cols
    && fld r 6 1 == (if p % 2 = 0 then p + 1 else p - 1)
    && (match d.away p (bits (fld r 4 2) 10 0) with | some n => 1 ≤ n && n ≤ 3 | none => false)

/-- Enter ACTIVE (R370, R371): with the same partner retry resumes, with another it starts anew and every flit of the retry buffer is
lost. -/
def Dev.activate (d : Dev) (p : Nat) (r : Bytes) : Dev :=
  let x := d.port p
  let partner := (bits (fld r 4 2) 10 0, fld r 6 1, fld r 16 4)
  let same := match x.partner with | some (s, q, _) => s == partner.1 && q == partner.2.1 | none => false
  let d := d.wn (prtReg p 8) (2 ^ 31 + partner.1 * 2 ^ 16 + partner.2.1 * 2 ^ 12)
  let d := if same then d.enterState p 5 { x with partner := some partner }
    else (d.enterState p 5 { x with partner := some partner, txSeq := 0, rxSeq := 0, retry := [], credits := [], owed := [] }).bump
      (prtReg p 0x20) (x.retry.flatMap (·.2)).length
  let d := if same then (x.retry.foldl (fun d g => d.sendGroup p 0 g.1 g.2) d).bump (prtReg p 0x18) x.retry.length else d
  (d.linkChg p).pump p

/-- PARAM_RECORD (R370). -/
def Dev.paramIn (d : Dev) (p : Nat) (r : Bytes) : Dev :=
  let x := d.port p
  if x.state ≠ 4 ∨ r.length ≠ 32 ∨ fld r 0 2 ≠ 0xA6F0 ∨ fld r 2 1 ≠ 1 then d
  else
    let n := if x.paramRec = r then x.paramCount + 1 else 1
    let d := (d.setPort p { x with paramRec := r, paramCount := n }).sendParam p true
    if n < 3 then d
    else if !d.paramOk p r then ((d.toDetect p).wbit (prtReg p 4) 14 true).fault (48 + p) p
    else if bit (fld r 3 1) 0 && !d.rbit (prtReg p 0) 2 then d.activate p r
    else d

/-- LINK_SIGNAL_DETECT (R366, R368): on entering EQUALISE every transmitter lane applies preset 5. -/
def Dev.signal (d : Dev) (p : Nat) : Dev :=
  let x := d.port p
  let closed := if p < 2 then d.fab.rowClosed else d.fab.colClosed
  if x.state = 1 ∧ !closed then
    d.enterState p 2 { x with lanes := (List.range 8).map (fun i => (i, { pre := 2, post := 6 })) }
  else d

/-- LINK_SIGNAL_LOSS and PORT_RETRAIN (R366). -/
def Dev.retrain (d : Dev) (p : Nat) : Dev := if 2 ≤ (d.port p).state then d.toDetect p else d

/-- TRAINING_TIMEOUT (R366). -/
def Dev.trainTimeout (d : Dev) (p : Nat) : Dev :=
  let x := d.port p
  let limit := match x.state with | 2 => 6000000 | 3 => 800000 | 4 => 400000 | _ => 0
  if limit ≠ 0 ∧ limit < d.now - x.since then d.toDetect p else d

/-! Receiving groups (R365) -/

/-- Send a NAK (R365); after RETRY_MAX of one episode the port retrains. A NAK is a numbered group like any other; with the retry buffer
full the newest group goes again as one (log entry 103). -/
def Dev.sendNak (d : Dev) (p : Nat) : Dev :=
  let x := d.port p
  if max 1 (d.rf (prtReg p 0) 15 8) ≤ x.naks then d.toDetect p
  else
    let d := d.setPort p { x with episode := true, naks := x.naks + 1, nakAt := d.now }
    let d := if x.retry.length < 1024 then d.newGroup p 1
      else match x.retry.getLast? with | some g => d.sendGroup p 1 g.1 g.2 | none => d
    d.bump (prtReg p 0x14)

/-- NAK_REPEAT (R365): every 8 µs of the episode. -/
def Dev.nakRepeat (d : Dev) (p : Nat) : Dev :=
  let x := d.port p
  if x.state = 5 ∧ x.episode ∧ 3200 ≤ d.now - x.nakAt then d.sendNak p else d

/-- Groups that an ACK_SEQ covers leave the retry buffer. -/
def ackGroups (ack : Nat) (l : List (Nat × List Bytes)) : List (Nat × List Bytes) :=
  if l.any (fun g => g.1 == ack) then (l.dropWhile (fun g => g.1 != ack)).drop 1 else l

/-- A received flit: its credit return, and a DATA flit queued to be forwarded or delivered. -/
def Dev.flitIn (d : Dev) (p : Nat) (f : Bytes) : Dev :=
  let x := d.port p
  let cr := fld f 1 1
  let x := if bits cr 7 4 = 0 then x
    else { x with credits := tmod 64 x.credits (bits cr 1 0 * 4 + bits cr 3 2) (fun c => min 64 (c + bits cr 7 4)) }
  let d := d.setPort p x
  if Flit.kind f = 0 then d
  else
    let d := d.bump (prtReg p 0x2C)
    if Flit.kind f = 1 then { d with fab := { d.fab with arrived := d.fab.arrived ++ [(p, f)] } } else d

/-- FLIT_GROUP (R365): the group as the partner sent it, and the symbols in which the lanes erred. A corrected codeword gives what was
sent, and the descrambler then undoes the scrambler (R362). ACK_SEQ and GKIND of a group that decodes count even where its GSEQ is not
the expected one (log entry 103). -/
def Dev.groupIn (d : Dev) (p : Nat) (errors : List (Nat × Nat)) (gseq ack kind : Nat) (flits : List Bytes) : Dev :=
  let x := d.port p
  if x.state ≠ 5 then d
  else
    let d := (d.bump (prtReg p 0xC) (x.corrected errors)).bump (prtReg p 0x10) (x.uncorrectable errors)
    if x.uncorrectable errors ≠ 0 then (if x.episode then d else d.sendNak p)
    else if 2 ≤ kind then d
    else
      let left := ackGroups ack x.retry
      let d := d.setPort p { x with retry := left }
      let d := if kind = 1 then (left.foldl (fun d g => d.sendGroup p 0 g.1 g.2) d).bump (prtReg p 0x18) left.length else d
      let x := d.port p
      if gseq ≠ x.rxSeq then (if x.episode then d else d.sendNak p)
      else
        let d := d.setPort p { x with rxSeq := (x.rxSeq + 1) % 4096, episode := false, naks := 0 }
        (flits.foldl (fun d f => d.flitIn p f) d).answer p (flits.any (fun f => Flit.kind f != 0))

/-! Forwarding and delivery (R372, R376, R380) -/

/-- (a − b) mod 256 lies from 1 to 127: b is older than a. -/
def genOlder (b a : Nat) : Bool := let n := (a + 256 - b) % 256; 1 ≤ n && n ≤ 127

/-- A whole message for this station: AWAIT messages may be held (R380), unknown classes are discarded (R381). -/
def Dev.deliverMsg (d : Dev) (m : Msg) : Dev :=
  if (match tfind d.fab.released m.src with | some g => genOlder m.gen g | none => false) then d.bump (LNK + 0x34)
  else if 3 < m.cls then d.bump (LNK + 0x40)
  else
    let seen := match tfind d.fab.fences m.src with | some g => genOlder g m.gen | none => false
    if m.await_ && !seen then
      let since := (tfind d.fab.heldSince m.src).getD d.now
      { d with fab := { d.fab with heldMsgs := d.fab.heldMsgs ++ [m], heldSince := tput d.fab.heldSince m.src since } }
    else if d.fab.heldMsgs.any (fun h => h.src == m.src && h.tc == m.tc) then
      { d with fab := { d.fab with heldMsgs := d.fab.heldMsgs ++ [m] } }
    else ({ d with fab := { d.fab with inbox := d.fab.inbox ++ [m] } }).bump (LNK + 0x2C)

/-- Release the held messages of a source that a fence or its time-out lets go (R380). -/
def Dev.releaseHeld (d : Dev) (src : Nat) (ok : Nat → Bool) : Dev :=
  let mine := d.fab.heldMsgs.filter (fun m => m.src == src)
  let go := mine.filter (fun m => ok m.gen)
  match go.getLast? with
  | none => d
  | some l =>
    let rest := d.fab.heldMsgs.filter (fun m => !(m.src == src && ok m.gen))
    let d := { d with fab := { d.fab with heldMsgs := rest, released := tput d.fab.released src l.gen, inbox := d.fab.inbox ++ go
                                          heldSince := if rest.any (fun m => m.src == src) then d.fab.heldSince else tdel d.fab.heldSince src } }
    d.bump (LNK + 0x2C) go.length

/-- FENCE_FLIT (R380). -/
def Dev.fenceIn (d : Dev) (src gen : Nat) : Dev :=
  ({ d with fab := { d.fab with fences := tput d.fab.fences src gen } }).releaseHeld src (fun g => genOlder gen g)

/-- FENCE_TMO of LNK_TMO in timebase cycles (R392). -/
def Dev.fenceTmo (d : Dev) : Nat := max 1 (d.rf (LNK + 0x18) 15 0) * 256
def Dev.reqTmo (d : Dev) : Nat := max 1 (d.rf (LNK + 0x18) 31 16) * 256

/-- FENCE_TIMEOUT (R380). -/
def Dev.fenceTimeout (d : Dev) (src : Nat) : Dev :=
  match tfind d.fab.heldSince src with
  | some t => if d.fenceTmo ≤ d.now - t then d.releaseHeld src (fun _ => true) else d
  | none => d

/-- Give back the credit of a flit that has left its receive buffer; own flits (port 4) hold none. -/
def Dev.owe (d : Dev) (p : Nat) (f : Bytes) : Dev :=
  let x := d.port p
  if 4 ≤ p then d else d.setPort p { x with owed := tmod 0 x.owed (creditKey f) (· + 1) }

/-- A DATA flit for this station joins its message; the last one delivers it. -/
def Dev.assemble (d : Dev) (p : Nat) (f : Bytes) : Dev :=
  let k := p * 4 + Flit.tc f
  let d := d.owe p f
  let (hd, sofar) := if Flit.first f then (f, []) else tget (f, []) d.fab.partials k
  let body := sofar ++ f.drop 16
  if Flit.last f then
    let d := { d with fab := { d.fab with partials := tdel d.fab.partials k, paths := tdel d.fab.paths k } }
    if Flit.abort f then d.bump (LNK + 0x44)
    else
      let len := fld hd 12 4
      let fl := Flit.flags hd
      d.deliverMsg { port := p, src := Flit.src hd, gen := Flit.gen hd, await_ := bit fl 0, cls := bits (fld hd 9 1) 4 0
                     tc := Flit.tc hd, ackReq := bit fl 2, id := fld hd 10 2, len, data := body.take len }
  else { d with fab := { d.fab with partials := tput d.fab.partials k (hd, body), paths := tput d.fab.paths k 4 } }

/-- What becomes of one arrived flit: none when it must wait for its way out (R373, R376). The flits of a message whose rest was ended
with ABORT share its fate (R372). -/
def Dev.forward1 (d : Dev) (p : Nat) (f : Bytes) : Option Dev :=
  let k := p * 4 + Flit.tc f
  let path : Option Nat :=
    if Flit.first f then
      if Flit.dest f = d.station then some 4
      else if 126 < Flit.hops f + 1 then some 5
      else match d.outPort (Flit.dest f) (bit (Flit.flags f) 1) with
        | some o => match tfind d.fab.locks (o * 4 + Flit.tc f) with
          | some h => if h = k then some o else none
          | none => some o
        | none => none
    else tfind d.fab.paths k
  match path with
  | none => if Flit.first f then none else some (d.owe p f)
  | some 4 => some (d.assemble p f)
  | some 5 =>
    let d := { d with fab := { d.fab with paths := if Flit.last f then tdel d.fab.paths k else tput d.fab.paths k 5 } }
    some ((d.owe p f).bump (LNK + 0x30))
  | some o =>
    let lk := o * 4 + Flit.tc f
    let d := { d with fab := { d.fab with
      paths := if Flit.last f then tdel d.fab.paths k else tput d.fab.paths k o
      locks := if Flit.last f then tdel d.fab.locks lk else tput d.fab.locks lk k } }
    some ((d.owe p f).forwardTo (some p) o (bit (Flit.vc f) 1) f)

/-- The first arrived flit that can move, taken from the list; flits behind one of its port and TC wait. -/
def Dev.forwardAny (d : Dev) (stuck : List Nat) : List (Nat × Bytes) → List (Nat × Bytes) → Dev
  | _, [] => d
  | pre, (p, f) :: t =>
    let k := p * 4 + Flit.tc f
    if stuck.contains k then d.forwardAny stuck (pre ++ [(p, f)]) t
    else match ({ d with fab := { d.fab with arrived := pre ++ t } }).forward1 p f with
      | some d' => d'
      | none => d.forwardAny (k :: stuck) (pre ++ [(p, f)]) t

/-- FLIT_FORWARD (R376); the credits it frees go back. -/
def Dev.flitForward (d : Dev) : Dev :=
  let held := d.withheld
  let e := d.forwardAny [] [] d.fab.arrived
  (List.range 4).foldl (fun e p =>
    if (e.port p).owed != (d.port p).owed && (e.port p).owed.any (fun o => decide (0 < o.2) && !held.contains (o.1 / 4))
    then e.answer p true else e) e

/-! TASK messages and acknowledgements (R382 to R384) -/

/-- Take the oldest delivered message of a class. -/
def Dev.takeMsg (d : Dev) (cls : Nat) : Option (Msg × Dev) :=
  match d.fab.inbox.find? (fun m => m.cls == cls) with
  | some m => some (m, { d with fab := { d.fab with inbox := d.fab.inbox.erase m } })
  | none => none

/-- Answer a message with an ACK carrying a status. -/
def Dev.ack (d : Dev) (m : Msg) (st : Status) : Dev :=
  match d.sendMessage m.src 3 m.tc m.id false (leB 1 st.code ++ zeros 7) with
  | (some d, _) => d
  | (none, d) => d

/-- A TASK that carries forwarded update sums (R303, R304). -/
def Msg.forwardedSum (m : Msg) : Bool := m.cls == 0 && Pkt.role m.data == 13 && bit (fld m.data 35 1) 0

/-- Forwarded sums that belong to the outgoing Plat of the last switch (R308). The message does not say when it was sent: of those
whose tag the outgoing Plat's sets could still have taken, which ones are free (log entry 101). -/
def Dev.staleSum (d : Dev) (m : Msg) : Bool :=
  m.forwardedSum && match d.emb.switched with
    | some s => (Pkt.tag m.data) ≤ s + 3 && Config.freeNat d.free % 2 == 1
    | none => false

/-- TASK_MESSAGE (R382). -/
def Dev.taskMessage (d : Dev) : Dev :=
  match d.takeMsg 0 with
  | none => d
  | some (m, d1) =>
    let pkt := slice m.data 0 32
    let data := m.data.drop 32
    let slotB := d.rn (LNK + 0x24)
    let refuse (st : Status) : Dev := (d1.bump (LNK + 0x40)).ack m st
    if d.staleSum m then { d1 with free := d1.free + 1 }
    else if d.rn (LNK + 0x20) = 0 ∨ (d.alloc (d.rn (LNK + 0x20))).isNone then refuse .descInvalid
    else if slotB < data.length then refuse .lenRange
    else if Pkt.length pkt ≠ m.len - 32 ∨ m.len < 32 then refuse .format
    else match d1.takeSlot (d.rn (LNK + 0x20)) slotB with
      | none => d
      | some (a, d2) =>
        let d3 := (d2.mwrite a data).send (Pkt.quad pkt) 2 { pkt := patch pkt 16 (leB 8 a), sender := 0x6000 + m.port }
        d3.ack m .ok

/-- End a wait for an answer. -/
def Dev.endWait (d : Dev) (id : Nat) : Option (OutKind × Dev) :=
  match d.fab.waits.find? (fun w => w.1 == id) with
  | some w => some (w.2.1, { d with fab := { d.fab with waits := d.fab.waits.filter (fun v => v.1 != id) } })
  | none => none

/-! Bells and link-state records on the fabric (R385, R390) -/

def bellFlitBytes (origin count : Nat) : Bytes :=
  mkFlit 2 0 true true 0x7FF origin 0 0 0 0 0 (leB 2 origin ++ leB 6 count)

/-- Broadcast an accepted bell (R385). -/
def Dev.broadcastBell (d : Dev) : Dev :=
  let d := { d with fab := { d.fab with bells := tput d.fab.bells d.station d.step } }
  d.flood none (bellFlitBytes d.station d.step)

/-- Forward a BELL flit whose count is new from its origin (R385). -/
def Dev.forwardBell (d : Dev) (port origin count : Nat) : Dev :=
  let new := match tfind d.fab.bells origin with | some c => decide (c < count) | none => true
  if d.rbit LNK 31 && new then
    ({ d with fab := { d.fab with bells := tput d.fab.bells origin count } }).flood (some port) (bellFlitBytes origin count)
  else d

/-- RING_FLIT (R390): flooded onwards once per sequence number, and delivered to the ring manager, whose database keeps it. -/
def Dev.ringFlit (d : Dev) (port origin seq : Nat) (payload : Bytes) : Dev :=
  let new := match tfind d.fab.rings origin with | some c => decide (c < seq) | none => true
  if d.rbit LNK 31 && new then
    ({ d with fab := { d.fab with rings := tput d.fab.rings origin seq, ringDb := tput d.fab.ringDb origin payload } }).flood (some port)
      (ringFlitBytes origin payload)
  else d

/-! The station table (R379, R390, R393) -/

/-- ST_DATA (R393): an entry of the pending table; the index then increments. -/
def Dev.stData (d : Dev) (p v : Nat) : Dev :=
  let i := d.rf (prtReg p 0x100) 10 0
  ({ d with fab := { d.fab with pending := tput d.fab.pending i (v % 65536) } }).wn (prtReg p 0x100) ((i + 1) % 2048)

/-- Messages of a queue, each as its flits. The first piece may be the rest of a message already begun. -/
def splitMsgs (acc : List Bytes) : List Bytes → List (List Bytes)
  | [] => if acc.isEmpty then [] else [acc]
  | f :: t => if Flit.last f then (acc ++ [f]) :: splitMsgs [] t else splitMsgs (acc ++ [f]) t

/-- A flit that leaves by another port than it was queued on: D of its VC is that of the new link (R374). -/
def Dev.reroute (d : Dev) (p o : Nat) (f : Bytes) : Bytes :=
  if Flit.kind f ≠ 1 then f
  else
    let v := Flit.vc f
    let dl := d.crosses o || (p / 2 == o / 2 && bit v 0 && !d.crosses p)
    Flit.onLink f (v / 2 * 2 + b2n dl) (Flit.hops f)

/-- Requeue what waits on ports that are down, in queue order (R379, R388). The rest of a message whose first flits have gone is lost
with them. -/
def Dev.requeue (d : Dev) : Dev :=
  (List.range 4).foldl (fun d p =>
    let x := d.port p
    if x.state = 5 then d
    else
      let msgs := splitMsgs [] x.queue
      let d := d.setPort p { x with queue := [] }
      msgs.foldl (fun d m => match m with
        | [] => d
        | f :: _ =>
          if !Flit.first f then d
          else match d.outPort (Flit.dest f) (bit (Flit.flags f) 1) with
            | some o => if o = p then d.setPort p { d.port p with queue := (d.port p).queue ++ m }
              else m.foldl (fun d g => d.queueFlit o (d.reroute p o g)) d
            | none => d.setPort p { d.port p with queue := (d.port p).queue ++ m }) d) d

/-- Where the FENCE to a destination goes (R379): behind the last message to it still queued here; with none queued, the way that its
earlier messages took while that is up, so as to come behind them (R380, log entry 103); else the new way. -/
def Dev.fencePort (d : Dev) (dest : Nat) (oldWay : Option Nat) : Option Nat :=
  let queued := (List.range 4).find? (fun p => (d.port p).queue.any (fun f => Flit.first f && Flit.dest f == dest && Flit.kind f == 1))
  let up := oldWay.filter (fun p => (d.port p).state == 5)
  let e := d.stEntry dest
  match queued, up with
  | some p, _ => some p
  | none, some p => some p
  | none, none => if bit e 15 then d.outPort dest (bit e 14) else none

/-- ST_COMMIT (R379): the pending table takes effect, GEN increments, changed destinations get a FENCE and an AWAIT window. -/
def Dev.commitTable (d : Dev) : Dev :=
  let old := d.lnkGen
  let entry (i : Nat) : Nat := tget 0 d.fab.pending i
  let changed := (List.range 2048).filter (fun i => i != d.station && entry i != d.rf (LNK + 0x10000 + i * 4) 15 0)
  let ways := changed.map (fun i => let e := d.stEntry i; (i, b2n (bit e 14), if bit e 15 then d.outPort i (bit e 14) else none))
  let d := changed.foldl (fun d i => d.wn (LNK + 0x10000 + i * 4) (entry i)) d
  let d := (d.wn (LNK + 0x14) ((old + 1) % 256)).requeue
  let until_ := d.now + d.fenceTmo
  let d := ways.foldl (fun d w =>
    let d := { d with fab := { d.fab with awaits := tput d.fab.awaits w.1 until_ } }
    match d.fencePort w.1 w.2.2 with
    | some p => d.queueFlit p (mkFlit 4 0 true true w.1 d.station old (2 * w.2.1) 0 0 0 [])
    | none => d) d
  (d.wbit (LNK + 4) 2 true).fault 52

/-! Bypass shunts (R386, R388) -/

/-- Whether an axis's shunt is to be closed (R386). -/
def Dev.shuntWanted (d : Dev) (column : Bool) : Bool :=
  !d.rbit LNK 31 || 2 ≤ d.flt.stage || d.rbit LNK (if column then 30 else 29)

/-- SHUNT_CHANGE (R388): the flits of the axis are lost, its ports lose signal. -/
def Dev.shunt (d : Dev) (column closed : Bool) : Dev :=
  if closed ≠ d.shuntWanted column ∨ closed = (if column then d.fab.colClosed else d.fab.rowClosed) then d
  else
    let d := { d with fab := if column then { d.fab with colClosed := closed } else { d.fab with rowClosed := closed } }
    let ps := if column then [2, 3] else [0, 1]
    ps.foldl (fun d p => (d.retrain p).raise (1232 + p) 6) d

end Sys2Proof.Machine
end

