-- ==== Sys2Proof/Machine/Mem.lean ====
section
/-! DEFINITION. DDR-5 memory: interleave sets, errors, correction and poisoning, patrol scrub (R346 to R359). -/
namespace Sys2Proof.Machine

/-! Interleave sets (R349 to R351) -/

/-- Capacity in bytes of a DIMM by its code in MEM_CH_STATUS. -/
def dimmBytes (code : Nat) : Nat := if code = 0 then 0 else 2 ^ (35 + code)

def Dev.chTrained (d : Dev) (n : Nat) : Bool := d.rf (memCh n 0) 2 0 == 1
def Dev.chCap (d : Dev) (n : Nat) : Nat := dimmBytes (d.rf (memCh n 0) 9 8)

/-- Size of a set of channels of equal capacity. -/
def Dev.maskSize (d : Dev) (m : Nat) : Nat :=
  match maskList m with
  | [] => 0
  | c :: t => (t.length + 1) * d.chCap c

/-- Put sets in force, given as channel masks from set 0 on. -/
def Dev.formSets (d : Dev) (masks : List Nat) : Dev :=
  let d := (List.range 16).foldl (fun d c => d.wf (memCh c 0) 6 3 0) d
  let (d, total, _) := (List.range 4).foldl (fun (a : Dev × Nat × Nat) k =>
    let (d, base, _) := a
    match masks[k]? with
    | none => (((d.wn (memSet k 0) 0).wn2 (memSet k 4) 0).wn2 (memSet k 12) 0, base, 0)
    | some m =>
      let sz := d.maskSize m
      let d := (maskList m).foldl (fun d c => d.wf (memCh c 0) 6 3 (k * 2 + 1)) d
      (((d.wn (memSet k 0) (2 ^ 31 + m)).wn2 (memSet k 4) base).wn2 (memSet k 12) sz, base + sz, 0)) (d, 0, 0)
  d.wn2 MEM total

/-- The channels of set 0 at module reset (R351): every TRAINED channel of the capacity most of them hold, the larger
on a tie. -/
def Dev.firstSet (d : Dev) : List Nat :=
  let of (code : Nat) : List Nat := (List.range 16).filter (fun n => d.chTrained n && d.rf (memCh n 0) 9 8 == code)
  let best := [3, 2, 1].foldl (fun b c => if b.length < (of c).length then of c else b) []
  if best.isEmpty then [] else [(best.map (2 ^ ·)).foldl (· + ·) 0]

/-- Masks of an INTERLEAVE section, by set number; the section is well formed only if all are there (R351). -/
def sectionMasks (b : Bytes) : List Nat :=
  let es := chunk 16 b
  (List.range es.length).map (fun k => ((es.find? (fun e => fld e 0 1 == k)).map (fld · 2 2)).getD 0)

/-- Masks of the sets in force. -/
def Dev.setMasks (d : Dev) : List Nat := ((List.range 4).filter d.setValid).map d.setMask

/-- An INTERLEAVE section obeys R351. -/
def Dev.setsOk (d : Dev) (b : Bytes) : Bool :=
  let es := chunk 16 b
  let ms := sectionMasks b
  let all := ms.flatMap maskList
  b.length % 16 == 0 && 1 ≤ es.length && es.length ≤ 4
    && es.all (fun e => fld e 0 1 < es.length && zeroAt e 1 1 && zeroAt e 4 12)
    && decide ((es.map (fld · 0 1)).Nodup)
    && decide all.Nodup && all.all d.chTrained
    && ms.all (fun m => match maskList m with
        | [] => false
        | c :: t => t.all (fun x => d.chCap x == d.chCap c))
    && (!d.rbit (MEM + 8) 0 || ms == d.setMasks)

/-- The entry of an INTERLEAVE section that breaks R351 by itself or with those before it: the first, if there is one. -/
def Dev.setsEntry (d : Dev) (b : Bytes) : Option Nat :=
  let es := chunk 16 b
  let ms := es.map (fun e => maskList (fld e 2 2))
  (List.range es.length).find? (fun i =>
    let e := es.getD i []
    let m := ms.getD i []
    !(zeroAt e 1 1 && zeroAt e 4 12 && fld e 0 1 < 4) || (es.take i).any (fun x => fld x 0 1 == fld e 0 1)
      || m.isEmpty || m.any (fun c => (ms.take i).any (·.contains c) || !d.chTrained c)
      || match m with | [] => true | c :: t => !t.all (fun x => d.chCap x == d.chCap c))

/-- First address and end of the range that records of a set may use, as the sets of a section (or those in force) will
stand: the staging area, the top 1 GiB of set 0, is not part of it (R58, R59, R351). -/
def Dev.setRange (d : Dev) (sec : Bytes) (k : Nat) : Nat × Nat :=
  let ms := if sec.isEmpty then d.setMasks else sectionMasks sec
  let sz (i : Nat) : Nat := match ms[i]? with | some m => d.maskSize m | none => 0
  let base := ((List.range k).map sz).foldl (· + ·) 0
  (base, base + sz k - if k = 0 then 2 ^ 30 else 0)

/-- The staging area can be placed (R419). -/
def Dev.stagingOk (d : Dev) : Bool := d.setValid 0 && 2 ^ 31 ≤ d.setSize 0

/-! Errors (R355, R356) -/

/-- Record an error in a channel's registers. -/
def Dev.errInfo (d : Dev) (ch c dev kind : Nat) : Dev :=
  (d.wn2 (memCh ch 0x10) c).wn (memCh ch 0x18) (at_ (c / 64 % 2) 8 + at_ dev 4 + kind)

/-- A corrected error (R355). -/
def Dev.corrected (d : Dev) (ch c dev : Nat) : Dev :=
  let d := (d.bump (memCh ch 8)).errInfo ch c dev 1
  if max 1 (d.rn (MEM + 0x10)) = d.rn (memCh ch 8) then (d.wbit (MEM + 8) 1 true).fault 32 ch 0 (d.deviceAddr ch c) else d

/-- A line is found uncorrectable and poisoned (R356). -/
def Dev.uncorrectable (d : Dev) (ch c a : Nat) : Dev :=
  let d := { ((d.bump (memCh ch 0xC)).errInfo ch c 0xF 2) with lines := tput d.lines a 3 }
  let d := if d.rbit (MEM + 8) 2 then d else d.wn2 (MEM + 0x18) a
  (d.wbit (MEM + 8) 2 true).fault 33 ch 0 a

/-- A read meets one marked line (R355, R356): whether it is uncorrectable. -/
def Dev.meetLine (d : Dev) (a mark : Nat) : Dev × Bool :=
  let (ch, c) := (d.channelOf a).getD (0, a)
  if mark = 1 then ({ (d.corrected ch c 0) with lines := tdel d.lines a }, false)
  else if mark = 2 then (d.uncorrectable ch c a, true)
  else ((d.bump (MEM + 0x14)).errInfo ch c 0xF 3, true)

/-- A read of a range: what the lines it meets report, and whether any is uncorrectable (R357). -/
def Dev.touch (d : Dev) (a n : Nat) : Dev × Bool :=
  (d.lines.filter (fun l => n != 0 && l.1 < a + n && a < l.1 + 64)).foldl (fun (x : Dev × Bool) l =>
    let (d, bad) := x.1.meetLine l.1 l.2
    (d, x.2 || bad)) (d, false)

/-- Several ranges read. -/
def Dev.touchAll (d : Dev) (rs : List (Nat × Nat)) : Dev × Bool :=
  rs.foldl (fun (x : Dev × Bool) r => let (d, b) := x.1.touch r.1 r.2; (d, x.2 || b)) (d, false)

/-! Patrol scrub (R354) -/

/-- SCRUB_READ: the scrub reads its next line of a channel, finds what it finds, and moves on. -/
def Dev.scrub (d : Dev) (ch : Nat) (f : LineFinding) : Dev :=
  if !d.rbit (memCh ch 0) 3 || !d.rbit (memCh ch 4) 0 || d.rf (MEM + 0xC) 15 0 == 0 then d
  else
    let c := d.rn2 (memCh ch 0x1C)
    let a := d.deviceAddr ch c
    let next := if d.chCap ch ≤ c + 64 then 0 else c + 64
    let d := d.wn2 (memCh ch 0x1C) next
    match tfind d.lines a with
    | some m => (d.meetLine a m).1
    | none => match f with
      | .clean => d
      | .corrected dev => d.corrected ch c dev.val
      | .uncorrectable => d.uncorrectable ch c a

end Sys2Proof.Machine
end

