-- ==== Sys2Proof/Machine/Batch.lean ====
section
/-! DEFINITION. Decoded batches as bytes and as data (R162, R179, R268), SCL16 scales and the quantisation of R165, exact
numbers. Nothing here knows the block. -/
namespace Sys2Proof.Machine

/-! Exact numbers -/

/-- An exact rational number num / den, den at least 1. -/
structure Frac where
  num : Int
  den : Nat
  deriving DecidableEq, Repr, Inhabited

/-- n × 2^e exactly. -/
def Frac.pow2 (n : Int) (e : Int) : Frac :=
  if 0 ≤ e then ⟨n * 2 ^ e.toNat, 1⟩ else ⟨n, 2 ^ (-e).toNat⟩

def Frac.abs (a : Frac) : Frac := ⟨a.num.natAbs, a.den⟩
def Frac.le (a b : Frac) : Bool := decide (a.num * b.den ≤ b.num * a.den)
def Frac.mul (a b : Frac) : Frac := ⟨a.num * b.num, a.den * b.den⟩
/-- Division by a positive number. -/
def Frac.div (a b : Frac) : Frac := ⟨a.num * b.den, a.den * b.num.toNat⟩
/-- Round half to even (R270). -/
def Frac.rne (a : Frac) : Int := rneDiv a.num (max 1 a.den)
/-- Ceiling of a number that is not negative. -/
def Frac.ceil (a : Frac) : Nat := ceilDiv a.num.toNat (max 1 a.den)
def Frac.max (a b : Frac) : Frac := if a.le b then b else a

/-! SCL16 (R269) -/

def sclM (w : Nat) : Nat := bits w 15 6
def sclE (w : Nat) : Int := sx 6 w
def scl (m : Nat) (e : Int) : Nat := m * 64 + tc 6 e

/-- Steps 1 to 4 of R165 over the present finite values of a block: the scale word, the q values in place (0 where a value
is absent), and how many were clamped. -/
def quantBlock (qmax : Nat) (vs : List (Option Frac)) : Nat × List Int × Nat :=
  let a : Frac := vs.foldl (fun (a : Frac) v => match v with | some v => a.max v.abs | none => a) ⟨0, 1⟩
  if a.num = 0 then (0, vs.map (fun _ => 0), 0)
  else
    let e : Int := ((List.range 64).map (fun (i : Nat) => (i : Int) - 32)).find? (fun e => a.le (Frac.pow2 (qmax * 1023) e)) |>.getD 31
    let m := min 1023 (a.div (Frac.pow2 qmax e)).ceil
    let qs := vs.map (fun v => match v with | some v => (v.div (Frac.pow2 m e)).rne | none => 0)
    (scl m e, qs.map (clampI (-qmax) qmax), (qs.filter (fun q => (qmax : Int) < q || q < -(qmax : Int))).length)

/-- Quantise a run of values in blocks of 32: scale words, q values, clamps. -/
def quantBlocks (qmax : Nat) (vs : List (Option Frac)) : List Nat × List Int × Nat :=
  (chunk 32 vs).foldl (fun (a : List Nat × List Int × Nat) b =>
    let (s, q, n) := quantBlock qmax b
    (a.1 ++ [s], a.2.1 ++ q, a.2.2 + n)) ([], [], 0)

/-- q_max of an integer type code or of INT4 (R165, R281). -/
def qMax (t : Nat) : Nat := if t = 0x10 then 7 else if t = 1 then 127 else if t = 2 then 32767 else 2147483647

/-! Schema types (R179, R268) -/

/-- Bytes of one value of a fixed-width type; BOOL is a bitmap, counted here as the byte that a value is held in. -/
def typeBytes (t : Nat) : Nat :=
  if t = 1 ∨ t = 5 ∨ t = 9 then 1 else if t = 2 ∨ t = 6 then 2 else if t = 3 ∨ t = 7 ∨ t = 0xA then 4
  else if t = 4 ∨ t = 8 ∨ t = 0xB then 8 else 0

def isInt (t : Nat) : Bool := 1 ≤ t && t ≤ 8
def isUnsigned (t : Nat) : Bool := 5 ≤ t && t ≤ 8
/-- Least and greatest value of an integer type (R268). -/
def typeLo (t : Nat) : Int := if isUnsigned t then 0 else -(2 ^ (8 * typeBytes t - 1) : Nat)
def typeHi (t : Nat) : Int :=
  if isUnsigned t then (2 ^ (8 * typeBytes t) : Nat) - 1 else (2 ^ (8 * typeBytes t - 1) : Nat) - 1

/-- The stored bytes of an integer of a type. -/
def intBytes (t : Nat) (v : Int) : Bytes := leB (typeBytes t) (tc (8 * typeBytes t) v)
/-- The integer that stored bytes of a type hold. -/
def bytesInt (t : Nat) (b : Bytes) : Int := if isUnsigned t || t == 9 then (ofLe b : Int) else sx (8 * typeBytes t) (ofLe b)

/-! Bitmaps -/

def packBits (l : List Bool) : Bytes :=
  (chunk 8 l).map (fun c => BitVec.ofNat 8 (c.foldr (fun b n => b2n b + 2 * n) 0))
def bitAt (b : Bytes) (i : Nat) : Bool := bit (fld b (i / 8) 1) (i % 8)

/-! Columns and batches -/

/-- A column of a decoded batch: its directory fields and its buffers. -/
structure BCol where
  idx : Nat
  type : Nat
  depth : Nat
  values : Nat
  data : Bytes
  aux : Option Bytes
  nulls : Option Bytes
  /-- Bytes of a value of a FIXED_BINARY column; the batch itself does not hold it. -/
  fixedW : Nat := 0
  deriving DecidableEq, Repr, Inhabited

/-- A decoded batch (R162). -/
structure DBatch where
  tag : Nat := 0
  samples : Nat
  filled : Nat
  voided : Nat := 0
  substituted : Nat := 0
  channel : Nat := 0
  flags : Nat := 0
  term : Nat := 0
  valid : List Bool
  subst : List Bool
  cols : List BCol
  deriving DecidableEq, Repr, Inhabited

/-- Numbers of a run of 4-byte words. -/
def u32s (b : Bytes) (off n : Nat) : List Nat := (List.range n).map (fun i => fld b (off + 4 * i) 4)

/-- The offset arrays of a list column, outermost first, and where they end in the AUX area. -/
def listArrays (aux : Bytes) : Nat → Nat → Nat → List (List Nat) × Nat
  | 0, _, pos => ([], pos)
  | k + 1, parents, pos =>
    let a := u32s aux pos (parents + 1)
    let r := listArrays aux k (a.getLast?.getD 0) (pos + 4 * (parents + 1))
    (a :: r.1, r.2)

def BCol.arrays (c : BCol) (samples : Nat) : List (List Nat) × Nat := listArrays (c.aux.getD []) c.depth samples 0

/-- The offset array of a variable binary column follows its list arrays. -/
def BCol.binOffs (c : BCol) (samples : Nat) : List Nat := u32s (c.aux.getD []) (c.arrays samples).2 (c.values + 1)

/-- Width of a fixed-width value. -/
def BCol.width (c : BCol) : Nat := if c.type = 0xD then c.fixedW else typeBytes c.type

def BCol.isNull (c : BCol) (i : Nat) : Bool := match c.nulls with | some b => !bitAt b i | none => false

/-- Bytes of value i, whether null or not. -/
def BCol.stored (c : BCol) (samples i : Nat) : Bytes :=
  if c.type = 9 then [if bitAt c.data i then 1 else 0]
  else if c.type = 0xC then
    let o := c.binOffs samples
    slice c.data (o.getD i 0) (o.getD (i + 1) 0 - o.getD i 0)
  else slice c.data (i * c.width) c.width

/-- Value i, none for a null. -/
def BCol.val (c : BCol) (samples i : Nat) : Option Bytes := if c.isNull i then none else some (c.stored samples i)

/-- Values of a DEPTH 0 column per sample: 1, or the length of a vector column's vectors (R294). -/
def BCol.per (c : BCol) (samples : Nat) : Nat := if c.depth = 0 ∧ samples ≠ 0 then c.values / samples else 1

/-- A DEPTH 0 column of one value per sample. -/
def BCol.flat (c : BCol) (samples : Nat) : Bool := c.depth == 0 && c.values == samples

/-- Where the side tensor of scales lies in the AUX area: at its start, or at the next 64-byte boundary after list arrays. -/
def BCol.scaleAt (c : BCol) (samples : Nat) : Nat := if c.depth = 0 then 0 else upTo (c.arrays samples).2 64

/-- The column is scaled (R210). -/
def BCol.scaled (c : BCol) (samples : Nat) : Bool :=
  1 ≤ c.type && c.type ≤ 3 && match c.aux with
    | some a => c.depth == 0 || c.scaleAt samples + 2 ≤ a.length
    | none => false

/-- Scale word of value i. -/
def BCol.scale (c : BCol) (samples i : Nat) : Nat := fld (c.aux.getD []) (c.scaleAt samples + i / 32 * 2) 2

/-- Whether offsets never fall and start at 0. -/
def rises (l : List Nat) : Bool := l.head? == some 0 && (l.zip l.tail).all (fun p => p.1 ≤ p.2)

/-- The column's buffers hold what its directory entry says. -/
def BCol.fits (c : BCol) (samples : Nat) : Bool :=
  let (as_, pos) := c.arrays samples
  let aux := c.aux.getD []
  1 ≤ c.type && c.type ≤ 0xD && c.depth ≤ 4 && as_.all rises && pos ≤ aux.length
    && (if c.depth = 0 then c.values == samples || (samples != 0 && c.values != 0 && c.values % samples == 0) else (as_.getLast?.bind (·.getLast?)) == some c.values)
    && (if c.type = 0xC then pos + 4 * (c.values + 1) ≤ aux.length && rises (c.binOffs samples)
          && (c.binOffs samples).getLast?.getD 0 ≤ c.data.length
        else if c.type = 9 then ceilDiv c.values 8 ≤ c.data.length else c.values * c.width ≤ c.data.length)
    && (!(c.depth == 0 && 1 ≤ c.type && c.type ≤ 3 && c.aux.isSome) || 2 * ceilDiv c.values 32 ≤ aux.length)
    && (match c.nulls with | some b => ceilDiv c.values 8 ≤ b.length | none => true)

/-- The width of n FIXED_BINARY values in a buffer padded to 64 bytes: the first width given for the column that fills the buffer
up to its padding, else the first that fits it, else the span divided by the values (DESIGN CHOICE, log entry 99: no width is in
the batch). -/
def fixedWidth (given : List Nat) (n span : Nat) : Nat :=
  ((given.find? (fun w => n * w ≤ span && span < n * w + 64)).or (given.find? (fun w => n * w ≤ span))).getD (span / Nat.max 1 n)

/-- Read a decoded batch, given the widths that a configuration gives a channel's columns; none when its parts do not fit
together. -/
def readBatch (widths : Nat → Nat → List Nat) (raw : Bytes) : Option DBatch :=
  let len := fld raw 56 8
  let samples := fld raw 8 4
  let n := fld raw 24 2
  let dir := fld raw 48 8
  if raw.length < 64 ∨ len < 64 ∨ raw.length < len ∨ len < dir + 32 * n then none
  else
    let ents := (List.range n).map (fun i => slice raw (dir + 32 * i) 32)
    let offs := [fld raw 32 8, fld raw 40 8, dir, len] ++ ents.flatMap (fun e => [fld e 8 8, fld e 16 8, fld e 24 8])
    let span (o : Nat) : Bytes :=
      let stop := (offs.filter (fun x => o < x)).foldl Nat.min len
      slice raw o (stop - o)
    let opt (o : Nat) : Option Bytes := if o = 0 then none else some (span o)
    let cols := ents.map (fun e =>
      { idx := fld e 0 2, type := fld e 2 1, depth := fld e 3 1, values := fld e 4 4, data := span (fld e 8 8)
        aux := opt (fld e 16 8), nulls := opt (fld e 24 8)
        fixedW := if fld e 2 1 = 0xD then fixedWidth (widths (fld raw 26 1) (fld e 0 2)) (fld e 4 4) (span (fld e 8 8)).length else 0
        : BCol })
    let mask (o : Nat) : List Bool := let b := slice raw o (ceilDiv samples 8); (List.range samples).map (bitAt b ·)
    if offs.all (· ≤ len) && decide ((cols.map (·.idx)).Nodup) && cols.all (·.fits samples)
        && fld raw 32 8 + ceilDiv samples 8 ≤ len && fld raw 40 8 + ceilDiv samples 8 ≤ len then
      some { tag := fld raw 0 6, samples, filled := fld raw 12 4, voided := fld raw 16 4, substituted := fld raw 20 4
             channel := fld raw 26 1, flags := fld raw 27 1, term := fld raw 28 4
             valid := mask (fld raw 32 8), subst := mask (fld raw 40 8), cols }
    else none

/-- Write a decoded batch: header, masks, directory in ascending COLUMN, then each column's aux area, values and null
bitmap, every part on a 64-byte boundary. -/
def DBatch.bytes (b : DBatch) : Bytes :=
  let cols := sortBy (fun (x y : BCol) => x.idx ≤ y.idx) b.cols
  let masks := padMul 64 (packBits b.valid) ++ padMul 64 (packBits b.subst)
  let v := 64
  let s := 64 + upTo (ceilDiv b.samples 8) 64
  let dir := 64 + masks.length
  let start := dir + upTo (32 * cols.length) 64
  let (ents, body) := cols.foldl (fun (a : Bytes × Bytes) c =>
    let here := start + a.2.length
    let aux := padMul 64 (c.aux.getD [])
    let data := padMul 64 c.data
    let nulls := padMul 64 (c.nulls.getD [])
    (a.1 ++ leB 2 c.idx ++ leB 1 c.type ++ leB 1 c.depth ++ leB 4 c.values ++ leB 8 (here + aux.length)
        ++ leB 8 (if aux.isEmpty then 0 else here) ++ leB 8 (if nulls.isEmpty then 0 else here + aux.length + data.length),
      a.2 ++ aux ++ data ++ nulls)) ([], [])
  leB 8 b.tag ++ leB 4 b.samples ++ leB 4 b.filled ++ leB 4 b.voided ++ leB 4 b.substituted ++ leB 2 cols.length
    ++ leB 1 b.channel ++ leB 1 b.flags ++ leB 4 b.term ++ leB 8 v ++ leB 8 s ++ leB 8 dir ++ leB 8 (start + body.length)
    ++ masks ++ padMul 64 ents ++ body

/-- Make a column of new values: null elements are stored as zeros of the width. -/
def mkCol (idx type depth width : Nat) (arrays : List (List Nat)) (vals : List (Option Bytes)) (scales : List Nat) : BCol :=
  let data :=
    if type = 9 then packBits (vals.map (fun v => match v with | some (b :: _) => b != 0#8 | _ => false))
    else vals.flatMap (fun v => v.getD (zeros (if type = 0xC then 0 else width)))
  let ofs := if type = 0xC then [vals.foldl (fun (a : List Nat) v => a ++ [a.getLast?.getD 0 + (v.getD []).length]) [0]] else []
  let arr := (arrays ++ ofs).flatMap (fun l => l.flatMap (leB 4 ·))
  let sc := scales.flatMap (leB 2 ·)
  let aux := if sc.isEmpty then arr else if arr.isEmpty then sc else padMul 64 arr ++ sc
  { idx, type, depth, values := vals.length, data, aux := if aux.isEmpty then none else some aux
    fixedW := if type = 0xD then width else 0, nulls := if vals.all (·.isSome) then none else some (packBits (vals.map (·.isSome))) }

/-! Rows -/

/-- The cell of a row. -/
def BCol.cell (c : BCol) (samples row : Nat) : Cell :=
  let (as_, _) := c.arrays samples
  let (lens, lo, hi) := as_.foldl (fun (a : List (List Nat) × Nat × Nat) o =>
    let here := (List.range (a.2.2 - a.2.1)).map (fun i => o.getD (a.2.1 + i + 1) 0 - o.getD (a.2.1 + i) 0)
    (a.1 ++ [here], o.getD a.2.1 0, o.getD a.2.2 0)) ([], row, row + 1)
  let k := c.per samples
  { lens, vals := (List.range ((hi - lo) * k)).map (fun i => c.val samples (lo * k + i)) }

/-- Running sums from 0. -/
def sums (l : List Nat) : List Nat := l.foldl (fun (a : List Nat) x => a ++ [a.getLast?.getD 0 + x]) [0]

/-- Put cells of rows together again: the offset arrays and the values. -/
def joinCells (depth : Nat) (cs : List Cell) : List (List Nat) × List (Option Bytes) :=
  ((List.range depth).map (fun k => sums (cs.flatMap (fun c => c.lens.getD k []))), cs.flatMap (·.vals))

end Sys2Proof.Machine
end

