-- ==== Sys2Proof/Machine/Widths.lean ====
section
/-! DEFINITION. Widths of FIXED_BINARY columns (R162, R179, R211, R231, R321): a batch holds none, so they come from the
parameter blocks of the seated configuration. -/
namespace Sys2Proof.Machine

/-- The widths that a seat's block gives a column of the batches it writes: MAX_BYTES of the channel's column entry (R179), the
widths of a row map (R211), the record sizes of a selection (R321), whose k a task may give. -/
def blockWidths (role : Nat) (p : Bytes) (chan col : Nat) : List Nat :=
  match role with
  | 1 =>
    let e := slice p (64 + 16 * col) 16
    if fld p 0 1 = chan ∧ col < fld p 8 2 ∧ fld e 2 1 = 0xD then [fld e 12 4] else []
  | 10 =>
    (List.range (fld p 0 2)).flatMap (fun i =>
      let e := slice p (16 + 48 * i) 48
      let w (cap : Nat) : Nat := upTo (8 + cap * (if bit (fld e 1 1) 2 then 8 else 4)) 8
      if fld e 4 2 ≠ col then []
      else if fld e 0 1 = 0x71 then [w (fld e 12 4)]
      else if fld e 6 1 = 0 then (List.range 65).map w else [w (fld e 6 1)])
  | _ =>
    (List.range (fld p 3 1)).filterMap (fun i =>
      let e := slice p (32 + 32 * fld p 0 2 + 8 * i) 8
      if fld e 0 2 = col ∧ fld e 2 1 = 0xD then some (fld e 6 2) else none)

/-- A role whose block has the form of R208. -/
def columnRole (role : Nat) : Bool := (2 ≤ role && role ≤ 8) || role == 14

/-- The widths that seated blocks give a column; a carried column has those of the column it is carried from (R231), through as
many joins as the fuel allows. -/
def seatedWidths (es : List SeatEntry) (chan : Nat) : Nat → Nat → List Nat
  | 0, _ => []
  | n + 1, col =>
    es.flatMap (fun e => if columnRole e.role || e.role == 1 || e.role == 10 then blockWidths e.role e.params chan col else [])
      ++ es.flatMap (fun e => if e.role = 6 ∨ e.role = 7 then
          (colOps e.params).flatMap (fun o => if o.op = 0x42 ∧ o.out = col then seatedWidths es chan n o.inA else []) else [])

/-- Widths that the seated configuration gives a FIXED_BINARY column of a channel's batches. -/
def Dev.declared (d : Dev) (chan col : Nat) : List Nat := seatedWidths d.plt.seats chan 4 col

/-- Read a decoded batch as this configuration does. -/
def Dev.readBatch (d : Dev) (raw : Bytes) : Option DBatch := Machine.readBatch d.declared raw

end Sys2Proof.Machine
end

