-- ==== Sys2Proof/Machine/ColumnOps.lean ====
section
/-! DEFINITION. Column operations on decoded batches: filters, hashes, buckets, normalisation (R208 to R230). -/
namespace Sys2Proof.Machine

/-- Inline table of E edges (R223). -/
def edges (p : Bytes) (ofs n : Nat) : List Int := (List.range n).map (fun i => sx 64 (fld p (ofs + 8 * i) 8))

def ColOp.nullTrue (o : ColOp) : Bool := bit o.flags 0
def ColOp.blockScale (o : ColOp) : Bool := bit o.flags 1
def ColOp.outCol (o : ColOp) : Nat := if o.out = 0xFFFF then o.inA else o.out

/-! Counters of a tile's column unit (R243) -/

structure ColCnt where
  sat : Nat := 0
  clip : Nat := 0
  range : Nat := 0
  degen : Nat := 0
  trunc : Nat := 0
  ovf : Nat := 0
  fmt : Nat := 0
  deriving DecidableEq, Repr, Inhabited

def ColCnt.add (a b : ColCnt) : ColCnt :=
  { sat := a.sat + b.sat, clip := a.clip + b.clip, range := a.range + b.range, degen := a.degen + b.degen
    trunc := a.trunc + b.trunc, ovf := a.ovf + b.ovf, fmt := a.fmt + b.fmt }

/-- Add to the counters of a tile. -/
def Dev.colCount (d : Dev) (tile : Nat) (c : ColCnt) : Dev :=
  if 1152 ≤ tile then d
  else
    let b (d : Dev) (o n : Nat) : Dev := if n = 0 then d else d.bump (tilReg tile o) n
    b (b (b (b (b (b (b d 0x64 c.sat) 0x68 c.clip) 0x6C c.range) 0x70 c.degen) 0x74 c.trunc) 0x78 c.ovf) 0x7C c.fmt

/-! Working values (R212) -/

def i64Max : Int := 2 ^ 63 - 1
def i64Min : Int := -(2 ^ 63)

def BCol.numeric (c : BCol) : Bool := 1 ≤ c.type && c.type ≤ 9
def BCol.binary (c : BCol) : Bool := c.type == 0xC || c.type == 0xD

/-- Value i at exponent f before any clamp: the stored value, or that of a scaled element; none for a null. -/
def BCol.exact (c : BCol) (samples : Nat) (f : Int) (i : Nat) : Option Int :=
  (c.val samples i).map (fun b =>
    let v := bytesInt c.type b
    if c.scaled samples then
      let s := c.scale samples i
      (Frac.pow2 (v * sclM s) (sclE s - f)).rne
    else v)

/-- The working value of value i and whether it clamped; none for a null. -/
def BCol.work (c : BCol) (samples : Nat) (f : Int) (i : Nat) : Option (Int × Bool) :=
  (c.exact samples f i).map (fun w => (clampI i64Min i64Max w, w < i64Min || i64Max < w))

/-- Whether the sample that value i of a DEPTH 0 column belongs to is valid; a vector column has several values a sample. -/
def DBatch.validAt (b : DBatch) (c : BCol) (i : Nat) : Bool := b.valid.getD (i / Nat.max 1 (c.per b.samples)) false

/-- Working values of a DEPTH 0 column; an invalid sample has none. The number of clamps goes with them. -/
def DBatch.works (b : DBatch) (c : BCol) (f : Int) : List (Option Int) × Nat :=
  let l := (List.range c.values).map (fun i => if b.validAt c i then c.work b.samples f i else none)
  (l.map (·.map (·.1)), (l.filter (fun x => match x with | some y => y.2 | none => false)).length)

/-- Binary values of a DEPTH 0 column. -/
def DBatch.bins (b : DBatch) (c : BCol) : List (Option Bytes) :=
  (List.range c.values).map (fun i => if b.validAt c i then c.val b.samples i else none)

def DBatch.col (b : DBatch) (idx : Nat) : Option BCol := b.cols.find? (fun c => c.idx == idx)

/-- Put an operation's column in place: in place of IN_A, or as a column that the batch lacks (R210). -/
def DBatch.putCol (b : DBatch) (o : ColOp) (c : BCol) : Option DBatch :=
  if o.out ≠ 0xFFFF ∧ (b.col o.out).isSome then none
  else some { b with cols := b.cols.filter (fun x => x.idx != o.outCol) ++ [c] }

/-- What an operation does to a batch: none is FORMAT (R210). Counts stand either way. -/
abbrev ColOut := ColCnt × Option DBatch

def colFmt : ColOut := ({}, none)

/-- Write a predicate (R213, R215): 0 for an invalid sample, NULL_TRUE where the test says nothing. -/
def DBatch.predicate (b : DBatch) (c : BCol) (o : ColOp) (cnt : ColCnt) (t : List (Option Bool)) : ColOut :=
  let vals := (((List.range c.values).map (b.validAt c)).zip t).map (fun (x : Bool × Option Bool) => [if x.1 && x.2.getD o.nullTrue then 1#8 else 0#8])
  (cnt, b.putCol o (mkCol o.outCol 9 0 1 [] (vals.map some) []))

/-- Write plain integers. -/
def DBatch.ints (b : DBatch) (o : ColOp) (cnt : ColCnt) (vs : List (Option Int)) : ColOut :=
  (cnt, b.putCol o (mkCol o.outCol o.outType 0 (typeBytes o.outType) [] (vs.map (·.map (intBytes o.outType))) []))

/-! Filters (R215 to R218) -/

def cmpTest (mode : Nat) (a b : Int) : Bool :=
  match mode with
  | 0 => a == b | 1 => a != b | 2 => decide (a < b) | 3 => decide (a ≤ b) | 4 => decide (b < a) | _ => decide (b ≤ a)

def opCmp (b : DBatch) (o : ColOp) : ColOut :=
  match b.col o.inA with
  | none => colFmt
  | some c =>
    if c.depth ≠ 0 then colFmt
    else if 6 ≤ o.mode then
      let t := (List.range c.values).map (fun i => some (if o.mode = 6 then c.isNull i else !c.isNull i))
      b.predicate c o {} t
    else if o.inB = 0xFFFF then
      if !c.numeric then colFmt
      else
        let (ws, n) := b.works c o.workExp
        b.predicate c o { sat := n } (ws.map (·.map (fun w => cmpTest o.mode w o.p1)))
    else match b.col o.inB with
      | none => colFmt
      | some e =>
        if e.depth ≠ 0 ∨ e.values ≠ c.values then colFmt
        else if c.numeric && e.numeric then
          let (ws, n) := b.works c o.workExp
          let (vs, k) := b.works e o.workExp
          b.predicate c o { sat := n + k } ((ws.zip vs).map (fun p => match p with | (some x, some y) => some (cmpTest o.mode x y) | _ => none))
        else if c.binary && e.binary && o.mode < 2 then
          b.predicate c o {} (((b.bins c).zip (b.bins e)).map (fun p => match p with
            | (some x, some y) => some (if o.mode = 0 then x == y else x != y) | _ => none))
        else colFmt

def opRange (b : DBatch) (o : ColOp) : ColOut :=
  match b.col o.inA with
  | none => colFmt
  | some c =>
    if c.depth ≠ 0 || !c.numeric then colFmt
    else
      let (ws, n) := b.works c o.workExp
      b.predicate c o { sat := n } (ws.map (·.map (fun w => o.p1 ≤ w && if o.mode = 0 then decide (w ≤ o.p2) else decide (w < o.p2))))

/-- BOOL values of a column, nulls as given. -/
def DBatch.flags_ (b : DBatch) (c : BCol) (nt : Bool) : List Bool :=
  (List.range c.values).map (fun i => match c.val b.samples i with | some (x :: _) => x != 0#8 | _ => nt)

def opLogic (b : DBatch) (o : ColOp) : ColOut :=
  match b.col o.inA with
  | none => colFmt
  | some c =>
    if c.depth ≠ 0 ∨ c.type ≠ 9 then colFmt
    else
      let x := b.flags_ c o.nullTrue
      if o.mode = 4 then b.predicate c o {} (x.map (fun a => some (!a)))
      else match b.col o.inB with
        | none => colFmt
        | some e =>
          if e.depth ≠ 0 ∨ e.type ≠ 9 ∨ e.values ≠ c.values then colFmt
          else
            let y := b.flags_ e o.nullTrue
            b.predicate c o {} ((x.zip y).map (fun p => some (match o.mode with
              | 0 => p.1 && p.2 | 1 => p.1 || p.2 | 2 => p.1 && !p.2 | _ => p.1 != p.2)))

/-- The 64-bit value a hash or a set test takes of an element: its working value, or the byte hash of a string. -/
def hashOf (seed : BitVec 64) (w : Int) : BitVec 64 := mix64 (BitVec.ofInt 64 w ^^^ seed)

/-- High half of a product of 64-bit numbers (R217, R222, R231). -/
def mulHi (a b : Nat) : Nat := a * b / 2 ^ 64

/-- Look a value up in an exact set, from a slot on: member, not a member, or none after 2^K slots (R216). -/
def setLook (d : Dev) (base k v empty_ : Nat) : Nat → Nat → Option Bool
  | 0, _ => none
  | n + 1, slot =>
    let x := d.mnum (base + 64 + slot * 8) 8
    if x = v then some true else if x = empty_ then some false else setLook d base k v empty_ n ((slot + 1) % 2 ^ k)

/-- Membership in a Bloom block (R197, R217): NB blocks of 512 bits. -/
def bloomBits (nb : Nat) (v : BitVec 64) : Nat × List Nat :=
  let h := (mix64 v).toNat
  (mulHi h nb, [bits h 8 0, bits h 17 9, bits h 26 18, bits h 35 27])

def bloomHas (d : Dev) (base p2 : Nat) (v : BitVec 64) : Bool :=
  let (blk, bs) := bloomBits (2 ^ (p2 - 9)) v
  bs.all (fun i => bit (d.mread (base + blk * 64 + i / 8) 1 |> ofLe) (i % 8))

def opInSet (d : Dev) (b : DBatch) (o : ColOp) : ColOut :=
  match b.col o.inA, d.alloc (bits o.p0 30 0) with
  | some c, some a =>
    if c.depth ≠ 0 || !(c.numeric || c.binary) then colFmt
    else
      let (vs, n) : List (Option (BitVec 64)) × Nat :=
        if c.numeric then let (ws, n) := b.works c o.workExp; (ws.map (·.map (BitVec.ofInt 64)), n)
        else ((b.bins c).map (·.map (byteHash 0)), 0)
      let base := a.base + o.p1.toNat
      if bit o.p0 31 then b.predicate c o { sat := n } (vs.map (·.map (bloomHas d base o.p2.toNat)))
      else
        let k := d.mnum base 1
        if k < 4 ∨ 24 < k ∨ 1 < d.mnum (base + 1) 1 ∨ !zeroAt (d.mread base 64) 2 6 ∨ !zeroAt (d.mread base 64) 16 48
            ∨ a.base + a.size < base + 64 + 2 ^ k * 8 then ({ sat := n }, none)
        else
          let e := d.mnum (base + 8) 8
          let has := d.mnum (base + 1) 1 == 1
          let look (v : BitVec 64) : Option Bool :=
            if v.toNat = e then some has else setLook d base k v.toNat e (2 ^ k) ((mix64 v).toNat / 2 ^ (64 - k))
          let r := vs.map (·.map look)
          let lost := (r.filter (fun x => x == some none)).length
          b.predicate c o { sat := n, ovf := lost } (r.map (·.map (fun x => x.getD false)))
  | _, _ => colFmt

/-- Rows of a batch in a new order: every column's cells regrouped; a scaled column is quantised anew in its new blocks. The
number of clamps goes with the columns. -/
def DBatch.pick (b : DBatch) (rows : List Nat) : List BCol × Nat :=
  b.cols.foldl (fun (a : List BCol × Nat) c =>
    let cells := rows.map (c.cell b.samples)
    let (arrays, vals) := joinCells c.depth cells
    if c.scaled b.samples then
      let at_ (row : Nat) : List Nat :=
        let (lo, hi) := ((c.arrays b.samples).1.foldl (fun (x : Nat × Nat) o => (o.getD x.1 0, o.getD x.2 0)) (row, row + 1))
        (List.range ((hi - lo) * c.per b.samples)).map (lo * c.per b.samples + ·)
      let vs := (rows.flatMap at_).map (fun i => (c.val b.samples i).map (fun x =>
        let s := c.scale b.samples i
        Frac.pow2 (bytesInt c.type x * sclM s) (sclE s)))
      let (ss, qs, n) := quantBlocks (qMax c.type) vs
      (a.1 ++ [mkCol c.idx c.type c.depth c.width arrays
        ((vs.zip qs).map (fun p => p.1.map (fun _ => intBytes c.type p.2))) ss], a.2 + n)
    else (a.1 ++ [mkCol c.idx c.type c.depth c.width arrays vals []], a.2)) ([], 0)

def opApply (b : DBatch) (o : ColOp) : ColOut :=
  match b.col o.inA with
  | none => colFmt
  | some c =>
    if !c.flat b.samples ∨ c.type ≠ 9 then colFmt
    else
      let keep := b.flags_ c o.nullTrue
      if o.mode = 0 then ({}, some { b with valid := (b.valid.zip keep).map (fun p => p.1 && p.2) })
      else
        let rows := (List.range b.samples).filter (fun i => b.valid.getD i false && keep.getD i false)
        let (cols, n) := b.pick rows
        ({ sat := n }, some { b with samples := rows.length, filled := rows.length, voided := 0, substituted := 0, cols
                                     valid := rows.map (fun _ => true), subst := rows.map (fun i => b.subst.getD i false) })

/-! Hashes and buckets (R219 to R224) -/

def opHash (b : DBatch) (o : ColOp) : ColOut :=
  match b.col o.inA with
  | none => colFmt
  | some c =>
    if c.depth ≠ 0 || !(c.numeric || c.binary) then colFmt
    else
      let (hs, n) : List (Option Nat) × Nat :=
        if c.numeric then
          let (ws, n) := b.works c o.workExp
          (ws.map (·.map (fun w => if o.mode = 0 then (crc32c (leB 8 (tc 64 w))).toNat else (hashOf (BitVec.ofInt 64 o.p2) w).toNat)), n)
        else ((b.bins c).map (·.map (fun s => if o.mode = 0 then (crc32c s).toNat else (byteHash (BitVec.ofInt 64 o.p2) s).toNat)), 0)
      b.ints o { sat := n } (hs.map (·.map (fun h => ((if o.p1 = 0 then h else mulHi h o.p1.toNat : Nat) : Int))))

def opEdges (p : Bytes) (b : DBatch) (o : ColOp) : ColOut :=
  match b.col o.inA with
  | none => colFmt
  | some c =>
    if c.depth ≠ 0 || !c.numeric then colFmt
    else
      let es := edges p o.p1.toNat o.p0
      let (ws, n) := b.works c o.workExp
      b.ints o { sat := n } (ws.map (·.map (fun w => ((es.filter (fun e => decide (e ≤ w))).length : Int))))

def opWidth (b : DBatch) (o : ColOp) : ColOut :=
  match b.col o.inA with
  | none => colFmt
  | some c =>
    if c.depth ≠ 0 || !c.numeric then colFmt
    else
      let (ws, n) := b.works c o.workExp
      let q (w : Int) : Int := (w - o.p1) / o.p2
      let clamps := (ws.filter (fun w => match w with | some w => q w < 0 || (o.p0 : Int) - 1 < q w | none => false)).length
      b.ints o { sat := n, range := clamps } (ws.map (·.map (fun w => clampI 0 ((o.p0 : Int) - 1) (q w))))

/-! Normalisation (R225 to R230) -/

def opClip (b : DBatch) (o : ColOp) : ColOut :=
  match b.col o.inA with
  | none => colFmt
  | some c =>
    if c.depth ≠ 0 || !c.numeric then colFmt
    else
      let (ws, n) := b.works c o.workExp
      let v (w : Int) : Int := clampI o.p1 o.p2 w
      let lo := typeLo o.outType
      let hi := typeHi o.outType
      let clips := (ws.filter (fun w => match w with | some w => v w != w | none => false)).length
      let sats := (ws.filter (fun w => match w with | some w => v w < lo || hi < v w | none => false)).length
      b.ints o { sat := n + sats, clip := clips } (ws.map (·.map (fun w => clampI lo hi (v w))))

/-- Quantise values as NORM does (R226): scale words, q values, clamps. A scaled output clamps to ±q_max (R271). -/
def normQuant (o : ColOp) (ys : List (Option Frac)) : List Nat × List Int × Nat :=
  let qm := qMax o.outType
  if o.blockScale then quantBlocks qm ys
  else
    let qs := ys.map (fun y => match y with | some y => (y.div (Frac.pow2 1 o.outExp)).rne | none => 0)
    ((List.range (ceilDiv ys.length 32)).map (fun _ => scl 1 o.outExp), qs.map (clampI (-qm) qm),
      (qs.filter (fun q => (qm : Int) < q || q < -(qm : Int))).length)

/-- The column of quantised values. -/
def normCol (o : ColOp) (depth : Nat) (arrays : List (List Nat)) (ys : List (Option Frac)) : BCol × Nat :=
  let (ss, qs, n) := normQuant o ys
  (mkCol o.outCol o.outType depth (typeBytes o.outType) arrays
    ((ys.zip qs).map (fun p => p.1.map (fun _ => intBytes o.outType p.2))) ss, n)

/-- L[f] of R228: rne(1,024 × log2(1 + f / 64)). -/
def logTable : List Nat :=
  [0, 23, 45, 68, 90, 111, 132, 153, 174, 194, 214, 234, 254, 273, 292, 311, 330, 348, 366, 384, 402, 419, 436, 454, 470, 487,
   504, 520, 536, 552, 568, 584] ++
  [599, 614, 629, 644, 659, 674, 689, 703, 717, 731, 745, 759, 773, 787, 800, 813, 827, 840, 853, 866, 879, 891, 904, 916, 929,
   941, 953, 965, 977, 989, 1001, 1012]

/-- LOG2Q of R228, for u at least 1. -/
def log2Q (u : Nat) : Nat :=
  let n := Nat.log2 u
  let f := if 6 ≤ n then u / 2 ^ (n - 6) % 64 else u * 2 ^ (6 - n) % 64
  n * 1024 + logTable.getD f 0

/-- floor(sqrt n) by bisection; the fuel is the number of bits of the root. -/
def isqrt (n : Nat) : Nat → Nat → Nat
  | 0, acc => acc
  | k + 1, acc => let t := acc + 2 ^ k; isqrt n k (if t * t ≤ n then t else acc)

/-- What NORM makes of a working value (R227 to R229), and the clamp and the degenerate element it counts. -/
def normOf (o : ColOp) (rec? : Option FbRec) (w : Int) : Frac × ColCnt :=
  match o.mode with
  | 0 => (Frac.pow2 w o.workExp, {})
  | 1 =>
    let s := bits o.p0 15 0
    (if sclM s = 0 then ⟨0, 1⟩ else Frac.pow2 ((w - o.p1) * sclM s) (sclE s + o.workExp), {})
  | 2 =>
    let u := w.natAbs + o.p1.toNat
    let uc := Nat.min u (2 ^ 64 - 1)
    (if uc = 0 then ⟨0, 1⟩ else Frac.pow2 (w.sign * (log2Q uc : Int)) (-10), { sat := b2n (uc != u) })
  | _ =>
    match rec? with
    | none => (⟨0, 1⟩, { degen := 1 })
    | some r =>
      let dd : Int := (r.count : Int) * r.squares - r.sum * r.sum
      if r.count = 0 ∨ dd ≤ 0 ∨ r.sumSat ∨ r.sqSat then (⟨0, 1⟩, { degen := 1 })
      else
        let root := isqrt (dd.toNat * 2 ^ 32) 128 0
        (⟨((r.count : Int) * w - r.sum) * 2 ^ 16, root⟩, {})

def opNorm (d : Dev) (tag : Tag) (b : DBatch) (o : ColOp) : ColOut :=
  match b.col o.inA with
  | none => colFmt
  | some c =>
    if c.depth ≠ 0 || !c.numeric then colFmt
    else
      let (ws, n) := b.works c o.workExp
      let r := if o.mode = 3 then d.normRec o tag else none
      let ys := ws.map (·.map (normOf o r))
      let cnt := ys.foldl (fun (a : ColCnt) y => match y with | some y => a.add y.2 | none => a) { sat := n }
      let (col, k) := normCol o 0 [] (ys.map (·.map (·.1)))
      (cnt.add { sat := k }, b.putCol o col)

/-- The largest value of each position over vectors of G elements; a position with no value gives 0 (R230). -/
def segMax (g : Nat) (l : List (Option Int)) : List Int :=
  (List.range g).map (fun i =>
    let vs := (chunk g l).filterMap (fun v => v.getD i none)
    match vs with | [] => 0 | v :: t => t.foldl (fun a x => if a < x then x else a) v)

def opSegMax (b : DBatch) (o : ColOp) : ColOut :=
  match b.col o.inA with
  | none => colFmt
  | some c =>
    if c.depth ≠ 1 || !isInt c.type then colFmt
    else
      let offs := ((c.arrays b.samples).1.head?).getD []
      let (rows, cnt) := (List.range b.samples).foldl (fun (a : List (List (Option Frac)) × ColCnt) i =>
        if !b.valid.getD i false then (a.1 ++ [[]], a.2)
        else
          let lo := offs.getD i 0
          let n := offs.getD (i + 1) 0 - lo
          if n = 0 ∨ n % o.p0 ≠ 0 then (a.1 ++ [[]], { a.2 with range := a.2.range + 1 })
          else
            let ws := (List.range n).map (fun k => c.work b.samples o.workExp (lo + k))
            let sat := (ws.filter (fun x => match x with | some y => y.2 | none => false)).length
            (a.1 ++ [(segMax o.p0 (ws.map (·.map (·.1)))).map (fun w => some (Frac.pow2 w o.workExp))],
             { a.2 with sat := a.2.sat + sat })) ([], {})
      let (col, k) := normCol o 1 [sums (rows.map (·.length))] rows.flatten
      (cnt.add { sat := k }, b.putCol o col)

/-- One operation that works on the batch alone. -/
def colStep (d : Dev) (params : Bytes) (tag : Tag) (b : DBatch) (o : ColOp) : ColOut :=
  match o.op with
  | 0x01 => opCmp b o | 0x02 => opRange b o | 0x03 => opInSet d b o | 0x04 => opLogic b o | 0x05 => opApply b o
  | 0x10 => opHash b o | 0x20 => opEdges params b o | 0x21 => opWidth b o
  | 0x30 => opNorm d tag b o | 0x31 => opSegMax b o | 0x32 => opClip b o
  | _ => ({}, some b)

/-- The operations in entry order, until one fails; every count stands (R210). -/
def colRun (d : Dev) (params : Bytes) (tag : Tag) : List ColOp → DBatch → ColCnt → ColOut
  | [], b, n => (n, some b)
  | o :: t, b, n =>
    match colStep d params tag b o with
    | (k, some b) => colRun d params tag t b (n.add k)
    | (k, none) => (n.add k, none)

/-! Stream blocks as batches (R193, R211) -/

/-- Records of a stream block: stream, payload with its EVENT_TIME and KEY. The fuel is the count of records. -/
def blockRecords : Nat → Bytes → List (Nat × Bytes)
  | 0, _ => []
  | n + 1, b => let len := fld b 2 2; (fld b 0 2, slice b 8 len) :: blockRecords n (b.drop (8 + upTo len 8))

/-- The batch that a stream block is transposed into. -/
def blockBatch (raw : Bytes) (rowMap : List Bytes) : DBatch :=
  let recs := blockRecords (fld raw 24 4) (raw.drop 64)
  let col (idx type width : Nat) (f : Nat × Bytes → Option Bytes) : BCol := mkCol idx type 0 width [] (recs.map f) []
  { tag := fld raw 0 6, samples := recs.length, filled := recs.length
    valid := recs.map (fun _ => true), subst := recs.map (fun _ => false)
    cols := [col 0 8 8 (fun r => some (slice r.2 0 8)), col 1 8 8 (fun r => some (slice r.2 8 8)),
             col 2 6 2 (fun r => some (leB 2 r.1))] ++
      rowMap.map (fun e =>
        let w := if fld e 2 1 = 0xD then fld e 6 2 else typeBytes (fld e 2 1)
        let ofs := 16 + fld e 4 2
        col (fld e 0 2) (fld e 2 1) w (fun r => if r.2.length < ofs + w then none else some (slice r.2 ofs w))) }

/-- The input batch of a column task (R210, R211). -/
def Dev.inputBatch (d : Dev) (params raw : Bytes) : Option DBatch :=
  if fld params 2 1 = 0 then d.readBatch raw
  else
    let n := fld params 3 1
    let ofs := 32 + 32 * fld params 0 2
    if raw.length < 64 then none else some (blockBatch raw ((List.range n).map (fun i => slice params (ofs + 8 * i) 8)))

end Sys2Proof.Machine
end

