-- ==== Sys2Proof/Machine/SeatWork.lean ====
section
/-! DEFINITION. What every seat task does around its work: its operand, its output slots, its end (R154, R162, R210, R357);
and the tasks of FILTER, HASH, BUCKET, NORM and STATS seats. -/
namespace Sys2Proof.Machine

/-- The running task of a seat, if it has yet to do its work and its role is the one given. -/
def Dev.atWork (d : Dev) (s role : Nat) : Option (Nat × Task) :=
  match d.running s with
  | some (q, t) => if t.phase = .seated_ ∧ t.role = role then some (q, t) else none
  | none => none

/-- The operand in a slot. -/
def Task.operand (t : Task) (slot : Nat) : Option Bytes := (tfind t.slots slot).map (·.pkt)
def Task.corrupt (t : Task) : Bool := t.slots.any (fun e => e.2.corrupt)
def Task.subst (t : Task) : Bool := t.slots.any (fun e => e.2.subst)

/-- The first mark of R154 that applies. -/
def markOf (corrupt subst : Bool) : Status := if corrupt then .corruptSample else if subst then .substituted else .ok

/-- A task has done its work: its status, unless it already had one, its results and their marks. -/
def Dev.workDone (d : Dev) (q uid : Nat) (st : Status) (results : List Result) (result : Nat := 0) : Dev :=
  d.updTask q uid (fun t =>
    let st := if st = .ok then markOf t.corrupt t.subst else st
    { t with phase := .worked, status := if t.status = .ok then st else t.status, result
             results := results.map (fun r => { r with corrupt := r.corrupt || t.corrupt, subst := r.subst || t.subst }) })

/-- The one result of a task that has written through tensor descriptors: the spec gives its packets no PAYLOAD and no
LENGTH, so both are free (log entry 13). -/
def Dev.workOpen (d : Dev) (q uid : Nat) : Dev :=
  { d.workDone q uid .ok [{ payload := Config.freeNat d.free % 2 ^ 48, length := Config.freeNat (d.free + 1) % 2 ^ 32 }] with
    free := d.free + 2 }

/-- A task ends without a result. -/
def Dev.workFail (d : Dev) (q uid : Nat) (st : Status) : Dev := d.workDone q uid st []

/-- An earlier task of the same lane and role has yet to do its work (R161, R232, R241). -/
def Dev.laneBefore (d : Dev) (q : Nat) (t : Task) : Bool :=
  (d.quad q).tasks.any (fun u => u.uid < t.uid && u.lane == t.lane && u.role == t.role && u.idx.isSome
    && u.phase != .worked && u.phase != .finished)

/-- Read a range for a task: its bytes, or none when a line of it is uncorrectable (R357). -/
def Dev.fetchData (d : Dev) (a n : Nat) : Dev × Option Bytes :=
  let (d, bad) := d.touch a n
  (d, if bad then none else some (d.mread a n))

/-- The bytes of slot 0's operand. -/
def Dev.operandData (d : Dev) (t : Task) (slot : Nat) : Dev × Option Bytes :=
  match t.operand slot with
  | some p => d.fetchData (Pkt.payload p) (Pkt.length p)
  | none => (d, some [])

/-- Slots of an allocation. -/
def Dev.slotCount (d : Dev) (alloc slotB : Nat) : Nat :=
  match d.alloc alloc with | some a => if slotB = 0 then 0 else a.size / slotB | none => 0

/-- Take n slots, none twice. -/
def takeSlots (alloc slotB : Nat) : Nat → Dev → List Nat → Option (List Nat × Dev)
  | 0, d, got => some (got, d)
  | n + 1, d, got =>
    match d.takeSlot alloc slotB with
    | some (a, d) => if got.contains a then none else takeSlots alloc slotB n d (got ++ [a])
    | none => none

/-- What came of writing outputs into slots. -/
inductive Placed where
  /-- The slots do not hold them: OUTPUT_FULL. -/
  | full
  /-- No slot is free now: the task waits (R162). -/
  | wait
  | done (rs : List Result) (d : Dev)

/-- Write outputs to the next slots of an allocation (R162, R210). -/
def Dev.place (d : Dev) (alloc slotB : Nat) (outs : List Bytes) : Placed :=
  if d.slotCount alloc slotB < outs.length ∨ outs.any (fun o => slotB < o.length) then .full
  else match takeSlots alloc slotB outs.length d [] with
    | none => .wait
    | some (as_, d) =>
      let d := (as_.zip outs).foldl (fun d x => d.mwrite x.1 x.2) d
      .done ((as_.zip outs).map (fun x => { payload := x.1, length := x.2.length })) d

/-! Column tasks (R208 to R230) -/

/-- A task ends with FORMAT (R210). -/
def Dev.colFormat (d : Dev) (s q uid : Nat) (n : ColCnt) : Dev := (d.colCount s { n with fmt := n.fmt + 1 }).workFail q uid .format

/-- A task ends with OUTPUT_FULL (R210). -/
def Dev.colFull (d : Dev) (s q uid : Nat) (n : ColCnt) : Dev := (d.colCount s { n with ovf := n.ovf + 1 }).workFail q uid .outputFull

/-- Address of the key area of the request slot that a lookup task names (R204). -/
def Dev.keyArea (d : Dev) (arg : Nat) : Option Nat :=
  (d.alloc (d.rn (ethReg (bits arg 12 12) 0x2C))).map (fun a => a.base + 512 * bits arg 11 0)

/-- A request's keys as a batch: the spec gives the bytes of the key area and no header, so the model reads them as one
UINT64 column, number 0, with a row per key (log entry 14). -/
def keysBatch (raw : Bytes) : DBatch :=
  let n := raw.length / 8
  let on := List.replicate n true
  { samples := n, filled := n, valid := on, subst := List.replicate n false
    cols := [{ idx := 0, type := 8, depth := 0, values := n, data := raw.take (8 * n), aux := none, nulls := none }] }

/-- The batch of a task's slot 0 operand, read as `f` reads it unless it is a request's key area. -/
def Dev.taskBatch (d : Dev) (t : Task) (raw : Bytes) (f : Option DBatch) : Option DBatch :=
  if t.tag = BitVec.allOnes 48 ∧ (t.operand 0).map Pkt.payload = d.keyArea t.arg ∧ (t.operand 0).isSome then some (keysBatch raw) else f

/-- A lookup task of a NORM seat has read the visible bank: its tag goes with the response (R204). -/
def Dev.noteStatsTag (d : Dev) (t : Task) : Dev :=
  if t.tag = BitVec.allOnes 48 ∧ t.role = 5 then
    let p := bits t.arg 12 12
    let x := d.eth p
    match tfind x.slots (bits t.arg 11 0) with
    | some s => d.setEth p { x with slots := tput x.slots (bits t.arg 11 0) { s with statsTag := d.fb.shadowTag } }
    | none => d
  else d

/-- Write the output batches of a column task and end it; with no free slot nothing has happened. -/
def Dev.colOut (d0 d : Dev) (s q uid : Nat) (params : Bytes) (n : ColCnt) (outs : List Bytes) : Dev :=
  match d.place (fld params 4 4) (fld params 8 4) outs with
  | .wait => d0
  | .full => d.colFull s q uid n
  | .done rs d => (d.colCount s n).workDone q uid .ok rs

/-- The work of a FILTER, HASH, BUCKET or NORM seat. -/
def Dev.colTask (d : Dev) (s role : Nat) : Dev :=
  match d.atWork s role with
  | none => d
  | some (q, t) =>
    let ops := colOps t.params
    if d.normWaits ops t.tag then d
    else
      let (e, data) := (d.nameTags ops t.tag).operandData t 0
      match data with
      | none => e.workFail q t.uid .eccUncorrectable
      | some raw =>
        match d.taskBatch t raw (d.inputBatch t.params raw) with
        | none => e.colFormat s q t.uid {}
        | some b =>
          match colRun e t.params t.tag ops b {} with
          | (n, none) => e.colFormat s q t.uid n
          | (n, some b) => d.colOut (e.noteStatsTag t) s q t.uid t.params n [b.bytes]

/-! Statistics units (R43, R237 to R239) -/

/-- Observe one column of a batch: none when the batch lacks it or it is of no accepted form. -/
def Dev.observeOp (d : Dev) (unit : Nat) (params : Bytes) (tag : Tag) (b : DBatch) (o : ColOp) : Option Dev :=
  match b.col o.inA with
  | none => none
  | some c =>
    let col := bits o.p0 12 0
    let seed := BitVec.ofNat 64 (fld params 24 8)
    let copy := tag.toNat % 4
    if c.depth ≠ 0 then none
    else
      let rows := (List.range c.values).filter (fun i => b.validAt c i)
      if c.numeric then
        let vs := rows.map (fun i => (c.work b.samples o.workExp i).map (·.1))
        let d := d.observe col unit tag vs
        let es := if bit o.p0 13 then edges params o.p1.toNat (bits o.p0 24 16) else []
        some (vs.foldl (fun d v => match v with
          | some w => d.extCount col copy (some (es.filter (fun e => decide (e ≤ w))).length) (some (hashOf seed w))
          | none => d) d)
      else if c.binary then
        let vs := rows.map (fun i => c.val b.samples i)
        let d := d.observeCount col unit tag (vs.filter (·.isSome)).length (vs.filter (·.isNone)).length
        some (vs.foldl (fun d v => match v with
          | some x => d.extCount col copy none (some (byteHash seed x))
          | none => d) d)
      else none

/-- Observe the operations in order; the flag tells whether all could be. -/
def observeOps (unit : Nat) (params : Bytes) (tag : Tag) (b : DBatch) : List ColOp → Dev → Dev × Bool
  | [], d => (d, true)
  | o :: t, d => match d.observeOp unit params tag b o with
    | some d => observeOps unit params tag b t d
    | none => (d, false)

/-- Streams whose columns a STATS seat observes. -/
def Dev.statStreams (d : Dev) (ops : List ColOp) : List Nat :=
  dedup (ops.filterMap (fun o => (tfind d.fb.cols (bits o.p0 12 0)).map (·.stream)))

/-- STATS_OBSERVE: the task of a statistics unit (R43, R45, R204). -/
def Dev.statsTask (d : Dev) (unit : Nat) : Dev :=
  match d.atWork (1224 + unit) 14 with
  | none => d
  | some (q, t) =>
    let ops := colOps t.params
    if t.tag = BitVec.allOnes 48 then d.workDone q t.uid .ok []
    else
      let streams := d.statStreams ops
      if streams.any (fun n => (d.fbTags unit n).stalls t.tag) then
        if (tfind d.fb.waits unit).isSome then d else { d with fb := { d.fb with waits := tput d.fb.waits unit d.qcyc } }
      else
        let d := match tfind d.fb.waits unit with
          | some _ => { d with fb := { d.fb with waits := tdel d.fb.waits unit } }
          | none => d
        let (d, data) := d.operandData t 0
        match data with
        | none => d.workFail q t.uid .eccUncorrectable
        | some raw =>
          match d.inputBatch t.params raw with
          | none => d.workFail q t.uid .format
          | some b =>
            let done := streams.filter (fun n => (d.fbTags unit n).sealed_.contains t.tag || (d.fbTags unit n).aborted.contains t.tag)
            let mine := ops.filter (fun o => match tfind d.fb.cols (bits o.p0 12 0) with
              | some c => !done.contains c.stream && !c.void.contains t.tag
              | none => false)
            let d := (streams.filter (fun n => !done.contains n)).foldl (fun d n => d.openTagAt unit n t.tag) d
            match observeOps unit t.params t.tag b mine d with
            | (d, true) => d.workDone q t.uid .ok []
            | (d, false) => d.workFail q t.uid .format

end Sys2Proof.Machine
end

