-- ==== Sys2Proof/Machine/Clock.lean ====
section
/-! DEFINITION. What one timebase cycle does by itself: time advances, and the counters of waiting count it. -/
namespace Sys2Proof.Machine

/-- CLU_STAT_STALL_CYC counts the cycles of a unit whose record waits (R136); a unit whose task is gone waits no more. -/
def Dev.countStall (d : Dev) (unit since : Nat) : Dev :=
  if (d.running (1224 + unit)).isSome then
    let d := d.bump (cluReg unit 0x80C) (d.qcyc - since)
    { d with fb := { d.fb with waits := tput d.fb.waits unit d.qcyc } }
  else { d with fb := { d.fb with waits := tdel d.fb.waits unit } }

/-- One timebase cycle (R22): the quadrant core makes 4.25 × (16 − S) / 16 cycles in it (R20, R433), and the cycle counters of
R100 and R136 count them under the conditions that held in them. -/
def Dev.cycle (d : Dev) (step : Nat) : Dev :=
  let d : Dev := { d with now := d.now + 1, qcyc64 := d.qcyc64 + 17 * (16 - step) }
  let d := (d.quads.foldl (fun d e => d.accrue e.1) d).fabricCycle
  d.fb.waits.foldl (fun d e => d.countStall e.1 e.2) d

end Sys2Proof.Machine
end

