-- ==== Sys2Proof/Machine/Phase.lean ====
section
/-! DEFINITION. The phase tracker (R23 to R30): which bells are accepted, and the loop that follows them. -/
namespace Sys2Proof.Machine

/-- What the loop of R28 is set to: the two shifts, LOCK_WIN, LOCK_COUNT and LOSS_COUNT. -/
structure LoopCfg where
  a : Nat
  b : Nat
  win : Nat
  lock : Nat
  loss : Nat
  deriving DecidableEq, Repr

def Dev.loopCfg (d : Dev) : LoopCfg :=
  { a := d.rf PHT 27 24, b := d.rf PHT 23 20, win := d.rn (PHT + 0xC), lock := max 1 (d.rf PHT 19 16), loss := max 1 (d.rf PHT 15 12) }

/-- Residual of a bell sampled at T (R28). -/
def Pht.residual (h : Pht) (t : Nat) : Int := (t : Int) * 4096 - (h.x + h.p)

/-- A residual is in window (R28). -/
def Pht.inWindow (h : Pht) (c : LoopCfg) (t : Nat) : Bool :=
  h.havePrev && h.p != 0 && decide ((h.residual t).natAbs ≤ c.win * 4096)

/-- X, P and the counts after a bell outside HOLDOVER (R28). -/
def Pht.track (h : Pht) (c : LoopCfg) (t : Nat) : Pht :=
  let r := h.residual t
  if !h.havePrev then { h with x := (t : Int) * 4096 }
  else if h.inWindow c t then
    { h with x := h.x + h.p + rne r c.a, p := h.p + rne r c.b, inwin := h.inwin + 1, outliers := 0 }
  else if h.mode = .unlocked then
    { h with p := ((t : Int) - h.tPrev) * 4096, x := (t : Int) * 4096, inwin := 0 }
  else { h with x := (t : Int) * 4096, inwin := 0, outliers := h.outliers + 1 }

/-- The changes of state at the end of the loop of R28. -/
def Pht.settle (h : Pht) (c : LoopCfg) (t : Nat) : Pht :=
  let h := if h.mode = .unlocked ∧ c.lock ≤ h.inwin then { h with mode := .tracking } else h
  let h := if h.mode = .tracking ∧ c.loss ≤ h.outliers then { h with mode := .unlocked, inwin := 0, outliers := 0 } else h
  { h with tPrev := t, havePrev := true }

/-- The tracker's answer to an accepted bell: the loop of R28, or R30 in HOLDOVER. -/
def Pht.update (h : Pht) (c : LoopCfg) (t : Nat) : Pht :=
  if h.mode = .holdover then
    { h with mode := .tracking, x := (t : Int) * 4096, inwin := 0, outliers := 0, tPrev := t, havePrev := true }
  else (h.track c t).settle c t

/-- PHT_RESID: the integer part of a residual, clamped to 32 bits. DESIGN CHOICE (log entry 72): R28 does not say how a
negative residual is cut; the fraction is dropped towards zero. -/
def residWord (r : Int) : Word := BitVec.ofInt 32 (clampI (-0x80000000) 0x7FFFFFFF (Int.tdiv r 4096))

/-- Whether a source is enabled (PHT_SRC). -/
def Dev.srcOn (d : Dev) (src : Nat) : Bool := d.rbit (PHT + 4) (4 - src)

/-- The active source of now (R24): it lapses when two tracked periods have passed without an accepted bell. DESIGN CHOICE
(log entry 73): the spec does not say what ACTIVE becomes then; it becomes 0, and a bell of any enabled source is accepted. -/
def Dev.activeNow (d : Dev) : Nat :=
  let h := d.pht
  match h.lastAcc with
  | none => h.active
  | some l => if h.mode ≠ .holdover ∧ 0 < h.p ∧ 2 * h.p < ((d.now - l : Nat) : Int) * 4096 then 0 else h.active

/-- What becomes of a sampled bell (R24 to R27). -/
inductive BellOut where
  /-- Not a bell of an enabled source, or the tracker is disabled. -/
  | ignored
  | shadow
  | runt
  | dup
  /-- A takeover within PHT_MIN_GAP: the source changes, the step has been counted already. -/
  | switch
  /-- Accepted; the new step count, and whether it jumped. -/
  | accept (step : Tag) (jump : Bool)
  deriving DecidableEq, Repr

/-- Whether a source takes over now (R27): of higher priority, in the window of the predicted bell. -/
def Dev.takesOver (d : Dev) (src : Nat) : Bool :=
  d.activeNow != 0 && decide (src < d.activeNow) && d.pht.mode != .holdover && d.pht.inWindow d.loopCfg d.now

/-- Whether a bell sampled at T comes less than PHT_MIN_GAP after the last accepted one (R25). -/
def Dev.tooSoonAt (d : Dev) (t : Nat) : Bool :=
  match d.pht.lastAcc with | some l => decide (t - l < d.rn (PHT + 0x10)) | none => false

/-- The same for a bell sampled now. -/
def Dev.tooSoon (d : Dev) : Bool := d.tooSoonAt d.now

/-- A bell message's count is not greater than the step count (R26). -/
def Dev.oldCount (d : Dev) (count : Option Tag) : Bool := match count with | some n => decide (n ≤ d.pht.step) | none => false

/-- The step of this bell has been counted already (R27): a takeover within PHT_MIN_GAP, or a source of higher priority sampled
in the very cycle in which HOLDOVER ended. A message of an earlier step is no such bell (log entry 74). -/
def Dev.counted (d : Dev) (src : Nat) (count : Option Tag) : Bool :=
  (match count with | some n => decide (d.pht.step ≤ n) | none => true)
    && ((d.takesOver src && d.tooSoon) || (d.pht.heldAt == some d.now && decide (src < d.pht.active)))

/-- Judge a bell of a source sampled now; a Miohar bell message carries its count (R24 to R27). -/
def Dev.judge (d : Dev) (src : Nat) (count : Option Tag) : BellOut :=
  if !d.rbit PHT 31 || !d.srcOn src then .ignored
  else if d.counted src count then .switch
  else if d.oldCount count then .dup
  else
    let act := d.activeNow
    if d.pht.mode = .holdover ∨ act = 0 ∨ src = act ∨ d.takesOver src then
      if d.tooSoon then .runt
      else match count with
        | none => .accept (d.pht.step + 1) false
        | some n => .accept n (n != d.pht.step + 1)
    else .shadow

/-- Change the active source; SRC_SWITCH when it changes from one source to another (R27). -/
def Dev.setActive (d : Dev) (src : Nat) : Dev :=
  let old := d.activeNow
  let d := { d with pht := { d.pht with active := src } }
  if old ≠ 0 ∧ old ≠ src then d.wbit (PHT + 8) 2 true else d

/-- Set a PHT_STATUS bit. -/
def Dev.phtFlag (d : Dev) (i : Nat) : Dev := d.wbit (PHT + 8) i true

/-- A bell is discarded as a runt (R25). -/
def Dev.runt (d : Dev) : Dev := (d.phtFlag 5).bump (PHT + 0x58)

/-- Record a shadow bell (R24). -/
def Dev.shadowBell (d : Dev) (src : Nat) : Dev :=
  { d with pht := { d.pht with shadow := tput d.pht.shadow src d.now } }.wn (PHT + 0x54) d.now

/-- A bell that was not accepted has been sampled: whether it is one of the active source (R27). -/
def Dev.sampled (d : Dev) (src : Nat) : Dev :=
  if src = d.pht.active then { d with pht := { d.pht with activeSeen := true } } else d

/-- The tracker has a prediction (R27). -/
def Dev.hasPrediction (d : Dev) : Bool := d.pht.mode != .holdover && d.pht.havePrev && d.pht.p != 0

/-- The count has passed the integer part of Xpred plus LOCK_WIN (R27). -/
def Dev.windowPassed (d : Dev) : Bool := decide ((d.pht.x + d.pht.p) / 4096 + (d.rn (PHT + 0xC) : Int) < d.now)

/-- The shadow bell to adopt (R27): of the enabled source of highest priority whose latest bell lies in the window. -/
def Dev.adoptable (d : Dev) : Option (Nat × Nat) :=
  d.pht.shadow.find? (fun e => d.srcOn e.1 && e.1 != d.pht.active && d.pht.inWindow d.loopCfg e.2)

/-- PHT_CTL.ENABLE goes from 0 to 1 (R23, R28). -/
def Dev.phtStart (d : Dev) : Dev :=
  { d with pht := { step := BitVec.ofNat 48 (d.rn2 (PHT + 0x30)), x := d.pht.x, p := (d.rn2 (PHT + 0x20) % 2 ^ 48 : Nat)
                    stepOutUntil := d.pht.stepOutUntil } }

/-- PHT_CTL.ENABLE is cleared (R23): the phase reads 0. -/
def Dev.phtStop (d : Dev) : Dev := { d with pht := { d.pht with origin := none } }

/-- HOLD_LIMIT_EXPIRY (R30): PHT_HOLD.LIMIT × P has passed in HOLDOVER. -/
def Dev.holdExpire (d : Dev) : Dev :=
  let h := d.pht
  if d.rbit PHT 31 ∧ h.mode = .holdover ∧ (d.rf (PHT + 0x14) 15 0 : Int) * h.p ≤ ((d.now - h.holdSince : Nat) : Int) * 4096 then
    let d := { d with pht := { h with mode := .unlocked, inwin := 0, outliers := 0, havePrev := false } }
    (d.phtFlag 6).fault 11
  else d

end Sys2Proof.Machine
end

