-- ==== Sys2Proof/Machine/Codecs.lean ====
section
/-! DEFINITION. The compressed formats: what an expansion accepts, which sizes it refuses, and the exact form of a packed
stream (R333 to R335, R340, R341). What RFC 1950 to 1952, LZ4, Zstandard and Snappy define themselves is left to their
readers and packers in Config. -/
namespace Sys2Proof.Machine

/-! Checksums of the formats -/

/-- One bit step of the reflected CRC-32 of RFC 1952. -/
def crc32Bit (c : BitVec 32) : BitVec 32 := if c.getLsbD 0 then (c >>> 1) ^^^ 0xEDB88320#32 else c >>> 1

def crc32Byte (c : BitVec 32) (b : Byte) : BitVec 32 := (List.range 8).foldl (fun c _ => crc32Bit c) (c ^^^ b.setWidth 32)

/-- CRC-32 of RFC 1952. -/
def crc32 (b : Bytes) : Nat := ((b.foldl crc32Byte 0xFFFFFFFF#32) ^^^ 0xFFFFFFFF#32).toNat

/-- Adler-32 of RFC 1950. -/
def adler32 (b : Bytes) : Nat :=
  let (s, t) := b.foldl (fun (a : Nat × Nat) x => let s := (a.1 + x.toNat) % 65521; (s, (a.2 + s) % 65521)) (1, 0)
  t * 65536 + s

/-! Acceptance (R333) -/

/-- The zlib envelope: CM 8, CINFO up to 7, no FDICT, the right Adler-32. -/
def zlibOk (raw : Bytes) (x : ExpandOut) : Bool :=
  let cmf := fld raw 0 1
  let flg := fld raw 1 1
  6 ≤ raw.length && cmf % 16 == 8 && cmf / 16 ≤ 7 && (cmf * 256 + flg) % 31 == 0 && !bit flg 5
    && fldBe raw (raw.length - 4) 4 == adler32 x.data

/-- Past a string that a zero ends. -/
def pastZero (raw : Bytes) (i : Nat) : Nat := i + ((raw.drop i).findIdx (· == 0#8)) + 1

/-- Where the optional fields FEXTRA, FNAME and FCOMMENT of a gzip header end: they are skipped. -/
def gzipFields (raw : Bytes) : Nat :=
  let f := fld raw 3 1
  let i := if bit f 2 then 12 + fld raw 10 2 else 10
  let i := if bit f 3 then pastZero raw i else i
  if bit f 4 then pastZero raw i else i

/-- The gzip envelope: one member, whose header CRC, where there is one, and CRC-32 are right. -/
def gzipOk (raw : Bytes) (x : ExpandOut) : Bool :=
  let i := gzipFields raw
  18 ≤ raw.length && fld raw 0 2 == 0x8B1F && fld raw 2 1 == 8 && fld raw 3 1 < 32
    && (!bit (fld raw 3 1) 1 || fld raw i 2 == crc32 (raw.take i) % 65536)
    && fld raw (raw.length - 8) 4 == crc32 x.data

/-- The format's own checks of a stream that has been read (R333): what it refuses ends in FORMAT. -/
def streamOk (fmt : Nat) (raw : Bytes) (x : ExpandOut) : Bool :=
  x.sound && x.used == raw.length && !x.foreign && match fmt with
    | 2 => zlibOk raw x
    | 3 => gzipOk raw x
    | 5 => x.dictId == 0 && x.blockMax ≤ 2 ^ 22 && x.sums
    | 6 => x.dictId == 0 && x.window ≤ 2 ^ 23 && x.sums
    | _ => true

/-- The sizes that a stream declares (R341): ISIZE of the member trailer, content sizes, the Snappy preamble. -/
def declaredSizes (fmt : Nat) (raw : Bytes) (x : ExpandOut) : List Nat :=
  if fmt = 3 then [fld raw (raw.length - 4) 4] else x.declared

/-- The checks before any output (R341): none when the expansion may begin, else 1 for FORMAT and 2 for DECLARED_SIZE. -/
def declaredWhy (ratio orig fmt : Nat) (cap : Option Nat) (raw : Bytes) (x : ExpandOut) : Option Nat :=
  let ds := declaredSizes fmt raw x
  let tooMuch (v : Nat) : Bool := decide (ratio * raw.length < v) || (match cap with | some c => decide (c < v) | none => false)
  if (orig :: ds).any tooMuch then some 2
  else if ds.any (fun v => v != (if fmt = 3 then orig % 2 ^ 32 else orig)) || (fmt == 6 && 2 ^ 23 < x.window) then some 1
  else none

/-- An expansion inside a DECODE seat (R340): none when it gives the `orig` bytes expected, else 1 for FORMAT and 2 for
DECLARED_SIZE. It has no output capacity of its own (log entry 94). -/
def expandWhy (ratio orig fmt : Nat) (raw : Bytes) : Option Nat :=
  let x := Config.expand fmt raw
  match declaredWhy ratio orig fmt none raw x with
  | some w => some w
  | none => if x.data.length ≠ orig ∨ !streamOk fmt raw x then some 1 else none

/-! Packing (R334, R335) -/

/-- B(n) of R334: the greatest length of a packed stream of n bytes, envelope included. -/
def packBound (n : Nat) : Nat := 96 + n + ceilDiv n 64

/-- Candidates of its hash chain that the packer looks at, at each position (R335). -/
def searchDepth (level : Nat) : Nat := 4 * 2 ^ (level - 1)

/-- Input cut into blocks of at most `most` bytes. Where it is cut within that is the format's packer's (log entry 95). -/
def cutBlocks (most : Nat) : Nat → List Nat → Bytes → List Bytes
  | 0, _, _ => []
  | n + 1, cuts, b =>
    if b.isEmpty then []
    else
      let k := max 1 (min most (cuts.headD most))
      b.take k :: cutBlocks most n cuts.tail (b.drop k)

/-- Blocks with what stands before each, and whether it is the last. -/
def blocksIn (before : Bytes) : List Bytes → List (Bytes × Bytes × Bool)
  | [] => []
  | b :: t => (before, b, t.isEmpty) :: blocksIn (before ++ b) t

/-- The last n bytes. -/
def lastBytes (n : Nat) (b : Bytes) : Bytes := b.drop (b.length - n)

/-- Bits padded to whole bytes. -/
def padBits (l : List Bool) : List Bool := l ++ List.replicate ((8 - l.length % 8) % 8) false
def bytesBits (b : Bytes) : List Bool := b.flatMap (fun x => (List.range 8).map x.getLsbD)

/-- Stored pieces of Deflate, of at most 65,535 bytes each, behind the bits before them. -/
def storedBits (bits : List Bool) (last : Bool) (b : Bytes) : List Bool :=
  (blocksIn [] (chunk 65535 b)).foldl (fun bits x =>
    let n := x.2.1.length
    padBits (bits ++ [last && x.2.2, false, false]) ++ bytesBits (leB 2 n ++ leB 2 (65535 - n) ++ x.2.1)) bits

/-- Deflate (R334): dynamic Huffman blocks of at most 65,536 input bytes over a 32 KiB window; a block that would not be smaller
than its input is stored. -/
def packDeflate (depth : Nat) (raw : Bytes) : Bytes :=
  packBits ((blocksIn [] (cutBlocks 65536 raw.length (Config.packCuts 1 depth raw) raw)).foldl (fun bits (x : Bytes × Bytes × Bool) =>
    let coded := Config.deflateBlock depth (lastBytes 32768 x.1) x.2.1
    if ceilDiv (3 + coded.length) 8 < x.2.1.length then bits ++ [x.2.2, false, true] ++ coded
    else storedBits bits x.2.2 x.2.1) [])

/-- FLEVEL of a zlib stream (R334). -/
def flevel (level : Nat) : Nat := if level ≤ 2 then 0 else if level ≤ 5 then 1 else if level = 6 then 2 else 3

/-- The second byte of a zlib header: FLEVEL, and the check bits that make the header a multiple of 31. -/
def zlibFlg (level : Nat) : Nat :=
  let f := flevel level * 64
  f + (31 - (0x7800 + f) % 31) % 31

/-- The LZ4 frame (R334): version 01, independent blocks, 4 MiB block maximum, content size, content checksum. -/
def packLz4Frame (depth : Nat) (raw : Bytes) : Bytes :=
  let desc : Bytes := leB 1 0x6C ++ leB 1 0x70 ++ leB 8 raw.length
  let block (b : Bytes) : Bytes :=
    let c := Config.lz4Block depth b
    if c.length < b.length then leB 4 c.length ++ c else leB 4 (b.length + 2 ^ 31) ++ b
  leB 4 0x184D2204 ++ desc ++ leB 1 (Config.xxh32 desc / 256)
    ++ (cutBlocks (2 ^ 22) raw.length (Config.packCuts 5 depth raw) raw).flatMap block ++ leB 4 0 ++ leB 4 (Config.xxh32 raw)

/-- A Zstandard block (R334): compressed, RLE or raw, whichever is smallest, the earlier on ties. -/
def zstdBlock (depth : Nat) (before b : Bytes) (last : Bool) : Bytes :=
  let head (kind size : Nat) : Bytes := leB 3 (b2n last + 2 * kind + 8 * size)
  let coded := Config.zstdBlock depth (lastBytes (2 ^ 23) before) b
  let same := b.all (fun x => some x == b.head?)
  if coded.length ≤ (if same then 1 else b.length) then head 2 coded.length ++ coded
  else if same then head 1 b.length ++ b.take 1
  else head 0 b.length ++ b

/-- The Zstandard frame (R334): an 8 MiB window, content size, content checksum, no dictionary. Which of the format's field
sizes holds the content size is open (log entry 95). -/
def packZstd (depth : Nat) (raw : Bytes) : Bytes :=
  let n := raw.length
  let short := Config.shortSize n && decide (256 ≤ n) && decide (n < 65792)
  leB 4 0xFD2FB528 ++ leB 1 (if short then 0x44 else 0x84) ++ leB 1 0x68 ++ (if short then leB 2 (n - 256) else leB 4 n)
    ++ (blocksIn [] (cutBlocks 131072 n (Config.packCuts 6 depth raw) raw)).flatMap (fun x => zstdBlock depth x.1 x.2.1 x.2.2)
    ++ leB 4 (Config.xxh64 raw)

/-- The format stream of a packing (R334): a function of format, level and input alone (R335), never longer than B(n) leaves. -/
def packStream (fmt level : Nat) (raw : Bytes) : Bytes :=
  let depth := searchDepth level
  let s := match fmt with
    | 1 => packDeflate depth raw
    | 2 => leB 1 0x78 ++ leB 1 (zlibFlg level) ++ packDeflate depth raw ++ (leB 4 (adler32 raw)).reverse
    | 3 => leB 4 0x00088B1F ++ leB 4 0 ++ leB 1 (if level ≤ 2 then 4 else if level = 9 then 2 else 0) ++ leB 1 255
        ++ packDeflate depth raw ++ leB 4 (crc32 raw) ++ leB 4 raw.length
    | 4 => Config.lz4Block depth raw
    | 5 => packLz4Frame depth raw
    | _ => packZstd depth raw
  s.take (packBound raw.length - 32)

end Sys2Proof.Machine
end

