-- ==== Sys2Proof/Machine/Emit.lean ====
section
/-! DEFINITION. Batches of emit streams, the late policy, emissions and their delivery (R35 to R41, R148, R408). -/
namespace Sys2Proof.Machine

/-- Parameter block of a stream's ENCODE seat group (R38). -/
def Dev.encParams (d : Dev) (stream : Nat) : Option SeatEntry :=
  d.plt.seats.find? (fun e => e.role == 11 && fld e.params 2 1 == stream)

def ttbEmitCfg (n : Nat) : Nat := TTB + 0x3000 + n * 4
def ttbEmitLate (n : Nat) : Nat := TTB + 0x3100 + n * 8
def ttbEmitDrop (n : Nat) : Nat := TTB + 0x3104 + n * 8

/-- The 64-byte header of an emitted batch (R40). -/
def batchHeader (stream : Nat) (b : Batch) (empty : Bool) : Bytes :=
  leB 8 b.tag.toNat ++ leB 1 stream ++ leB 1 b.input ++ leB 1 (b2n empty) ++ zeros 1
    ++ leB 4 (if empty then 0 else b.positions) ++ leB 4 (if empty then 0 else b.tokens) ++ leB 4 b.tokenBytes
    ++ leB 4 (if empty then 0 else b.sequences) ++ zeros 36

/-- The batch of a tag. -/
def EmitSt.batch (e : EmitSt) (b : Tag) : Option Batch := e.batches.find? (fun x => x.tag == b)
def EmitSt.setBatch (e : EmitSt) (b : Batch) : EmitSt :=
  { e with batches := e.batches.map (fun x => if x.tag = b.tag then b else x) }
/-- Due emissions stand in tag order (R36). -/
def EmitSt.addDue (e : EmitSt) (x : Tag × Bool × Option Status) : EmitSt := { e with due := insertBy (fun a b => a.1 ≤ b.1) x e.due }
def EmitSt.dropBatch (e : EmitSt) (b : Tag) : EmitSt := { e with batches := e.batches.filter (fun x => x.tag != b) }

/-- The route of an emit stream (R41, R61). -/
def Dev.emitRoute (d : Dev) (stream : Nat) : Option Route := d.plt.routes.find? (fun r => r.src == 0xE000 + stream)

/-- Status of a batch that did not fail (R154). -/
def markStatus (aborted late corrupt subst : Bool) : Status :=
  if aborted then .abortedStep else if late then .late else if corrupt then .corruptSample else if subst then .substituted else .ok

/-- The emission that a due entry may start now, if it may (R35, R36, R40, R408). -/
def Dev.emissionFor (d : Dev) (stream : Nat) (x : Tag × Bool × Option Status) : Option Emission :=
  let e := d.emitSt stream
  let p := (d.encParams stream).map (·.params)
  let input := (p.map (fun p => fld p 3 1)).getD 0
  let tb := (p.map (fun p => fld p 16 4)).getD 0
  let empty (st : Status) (slots : List Nat) : Emission :=
    { tag := x.1, status := if d.flt.stepAborted then .abortedStep else st, addr := none, length := 64, tokens := 0, slots
      head := batchHeader stream { tag := x.1, input, tokenBytes := tb } true }
  match x.2.2 with
  | some st => some (empty st [])
  | none =>
    match e.batch x.1 with
    | none => none
    | some b =>
      if !b.ready then none
      else match b.fail with
        | some st => some (empty st [b.slot])
        | none =>
          let (a, n) := (b.packed.getD (b.slot, b.used))
          some { tag := x.1, status := markStatus d.flt.stepAborted x.2.1 b.corrupt b.subst, addr := some a, length := n, tokens := b.tokens
                 packed := b.packed.isSome, slots := b.slot :: (match b.packed with | some p => [p.1] | none => []) }

/-- Start the next emission of a stream if none is in progress and the first due batch is ready (R36, R37). -/
def Dev.tryEmit (d : Dev) (stream : Nat) : Dev :=
  let e := d.emitSt stream
  match e.cur, e.due with
  | none, x :: rest =>
    match d.emissionFor stream x with
    | none => d
    | some m =>
      let e := { e with cur := some m, due := rest }
      let open_ := match e.batch x.1 with | some b => !b.closed | none => false
      let e := if x.2.2.isSome then e else { (e.dropBatch x.1) with dropTags := if open_ then x.1 :: e.dropTags else e.dropTags }
      ((d.setEmit stream e).attAdd (0x5000 + stream * 4) (ceilDiv (m.length + 16) 64)).attAdd (0x5100 + stream * 4) 1
  | _, _ => d

/-- The last emission of a stream is held: its delivery waits for a host buffer (R148). -/
def Dev.waitsBuffer (d : Dev) (stream : Nat) : Bool :=
  d.host.deliveries.any (fun x => x.stream == some stream && (d.ring x.ring).buffers.isEmpty)

/-- An EMIT_BATCH entry fires for the batch of a tag (R35, R36, R148, R408). DESIGN CHOICE (log entry 76): a ready batch whose
entry fires on time while another emission of the stream is in progress starts after it and keeps OK, but for one whose
delivery waits for a buffer, which holds the stream. -/
def Dev.fireEmit (d : Dev) (stream : Nat) (b : Tag) (late : Bool) : Dev :=
  if !d.rbit (ttbEmitCfg stream) 31 then d
  else
    let e := d.emitSt stream
    let ready := match e.batch b with | some x => x.ready | none => false
    let behind := e.due.any (fun x => decide (x.1 < b) && (d.emissionFor stream x).isNone) || d.waitsBuffer stream
    if d.flt.aborted.contains b then
      (d.setEmit stream ((e.addDue (b, late, some Status.abortedStep)).dropBatch b)).tryEmit stream
    else if ready && !late && !behind then (d.setEmit stream (e.addDue (b, false, none))).tryEmit stream
    else
      let d := d.bump (ttbEmitLate stream)
      if d.rbit (ttbEmitCfg stream) 30 then
        let e := e.addDue (b, true, some Status.late)
        let e := if ready then e.dropBatch b else { e with dropTags := b :: e.dropTags }
        ((d.setEmit stream e).bump (ttbEmitDrop stream)).tryEmit stream
      else (d.setEmit stream (e.addDue (b, true, none))).tryEmit stream

/-- A batch becomes ready; a batch dropped under SKIP goes (R35, R40). -/
def Dev.batchReady (d : Dev) (stream : Nat) (b : Batch) : Dev :=
  let e := d.emitSt stream
  if e.dropTags.contains b.tag then
    d.setEmit stream { (e.dropBatch b.tag) with dropTags := e.dropTags.filter (· != b.tag) }
  else (d.setEmit stream (e.setBatch { b with ready := true })).tryEmit stream

def Dev.pipe (d : Dev) (q : Nat) (pack : Bool) : PipeSt := tget {} d.pipes (q * 2 + b2n pack)
def Dev.setPipe (d : Dev) (q : Nat) (pack : Bool) (x : PipeSt) : Dev := { d with pipes := tput d.pipes (q * 2 + b2n pack) x }

/-- Bytes of a job descriptor (R336) without a follow-on task. -/
def jobDesc (inAlloc inLen inOfs outAlloc outCap outOfs op level : Nat) : Bytes :=
  leB 1 4 ++ zeros 15 ++ leB 4 inAlloc ++ leB 4 inLen ++ leB 8 inOfs ++ leB 4 outAlloc ++ leB 4 outCap ++ leB 8 outOfs ++ zeros 8
    ++ leB 1 op ++ leB 1 level ++ zeros 6

/-- Queue the packing job of a finished batch on its quadrant's seat queue, once a packed-batch slot is free and the
queue has room (R40, R330). -/
def Dev.packBatch (d : Dev) (stream : Nat) (b : Batch) : Dev :=
  match d.encParams stream with
  | none => d
  | some s =>
    let p := s.params
    let out := fld p 8 4
    let pk := fld p 20 4
    let cap := upTo (packBound (fld p 12 4)) 64
    let q := ((denseSeat s.seat).bind seatQuad).getD 0
    let room := decide ((d.pipe q true).seat_.length < 64)
    match d.alloc out, d.alloc pk, if room then d.takeSlot pk cap else none with
    | some oa, some pa, some (a, d) =>
      let desc := jobDesc out b.used (b.slot - oa.base) pk cap (a - pa.base) (1 + fld p 4 1 / 2 % 16 * 2) (fld p 5 1)
      let x := d.pipe q true
      let d := d.setEmit stream ((d.emitSt stream).setBatch { b with packed := some (a, 0) })
      d.setPipe q true { x with seat_ := x.seat_ ++ [{ desc, src := .encode stream b.tag, tag := b.tag.toNat }] }
    | _, _, _ => d

/-- A closed batch is finished: its header is written, and with COMPRESS it is packed (R40). -/
def Dev.finishBatch (d : Dev) (stream : Nat) (b : Batch) : Dev :=
  let comp := match d.encParams stream with | some s => bit (fld s.params 4 1) 0 | none => false
  let d := if b.fail.isSome then d else d.mwrite b.slot (batchHeader stream b false)
  if b.fail.isSome || !comp then d.batchReady stream b
  else
    let b := { b with packing := true }
    (d.setEmit stream ((d.emitSt stream).setBatch b)).packBatch stream b

/-- Close the batches of tags below one, and the batch of a tag whose close has come (R40). -/
def Dev.closeBatches (d : Dev) (stream : Nat) (upTo_ : Tag) (also : Bool) : Dev :=
  let e := d.emitSt stream
  let hit := e.batches.filter (fun b => !b.closed && (b.tag < upTo_ || (also && b.tag == upTo_)))
  hit.foldl (fun d b =>
    let b := { b with closed := true }
    (d.setEmit stream ((d.emitSt stream).setBatch b)).finishBatch stream b) d

/-- An ENCODE task that takes part in batches: no move task, no lookup work (R38, R42). -/
def Task.encodes (t : Task) : Bool := t.role == 11 && !bit t.arg 31 && t.tag != BitVec.allOnes 48

/-- A task of a later tag has been dispatched in the group's lane, and the tasks before it in the lane have been released: the
batches that it closes (R40). -/
def Dev.closeByDispatch (d : Dev) (q : Nat) : Dev :=
  let es := (d.quad q).tasks.filter Task.encodes
  (es.filter (fun t => !t.phase.early)).foldl (fun d t =>
    if es.any (fun u => u.uid < t.uid && u.lane == t.lane) then d else d.closeBatches (fld t.params 2 1) t.tag false) d

/-- The batch of a tag occupies a slot from the first ENCODE task that has tokens for it (R40): the state with that batch,
none when no slot is free. A tag of an aborted step has no batch. -/
def Dev.openBatch (d : Dev) (b : Tag) (stream : Nat) : Option Dev :=
  match d.encParams stream with
  | none => some d
  | some s =>
    if ((d.emitSt stream).batch b).isSome || d.flt.aborted.contains b then some d
    else match d.takeSlot (fld s.params 8 4) (fld s.params 12 4) with
      | none => none
      | some (a, d) =>
        let n : Batch := { tag := b, slot := a, input := fld s.params 3 1, tokenBytes := fld s.params 16 4 }
        some (d.setEmit stream { (d.emitSt stream) with batches := insertBy (fun x y => x.tag ≤ y.tag) n (d.emitSt stream).batches })

/-- An ENCODE task is released: its tokens are appended to the batch of its tag in lane order (R40). The status answered
replaces the task's when the batch is full. -/
def Dev.appendTokens (d : Dev) (b : Tag) (o : EncOut) (close : Bool) : Dev × Option Status :=
  match d.encParams o.stream with
  | none => (d, none)
  | some s =>
    let slotB := fld s.params 12 4
    let d := d.closeBatches o.stream b false
    match (d.emitSt o.stream).batch b with
    | none => (d, none)
    | some x =>
      if x.closed then (d, none)
      else
        let (d, st) :=
          if slotB < x.used + o.data.length then
            (d.batchReady o.stream { x with fail := some .outputFull }, some Status.outputFull)
          else
            let y := { x with used := x.used + o.data.length, positions := x.positions + o.positions, tokens := x.tokens + o.tokens
                              sequences := x.sequences + o.sequences, corrupt := x.corrupt || o.corrupt, subst := x.subst || o.subst }
            ((d.mwrite (x.slot + x.used) o.data).setEmit o.stream ((d.emitSt o.stream).setBatch y), none)
        (if close then d.closeBatches o.stream b true else d, st)

/-! Emission end and delivery (R41, R148) -/

/-- Bytes of an emission before its trailer. -/
def Dev.emissionBody (d : Dev) (m : Emission) : Bytes :=
  match m.addr with | some a => d.mread a m.length | none => m.head

/-- The delivery trailer (R41). -/
def trailer (st : Status) (packed : Bool) (tokens : Nat) (body : Bytes) : Bytes :=
  leB 1 st.code ++ leB 1 (b2n packed) ++ zeros 2 ++ leB 4 tokens ++ leB 4 (crc32c body).toNat ++ zeros 4

/-- A delivery ends: the stream goes on with its next batch. -/
def Dev.emissionDone (d : Dev) (stream : Nat) : Dev :=
  (d.setEmit stream { (d.emitSt stream) with cur := none }).tryEmit stream

/-- A packet made on a route for a result (R61, R84, R88). The port is 1 within the source's quadrant, else 2. -/
def Dev.routePacket (d : Dev) (r : Route) (srcQuad : Nat) (sender tag payload length arg : Nat) (corrupt subst : Bool) : Dev :=
  let (q, seat) := match r.dkind with
    | 0 => (match denseSeat r.dest with | some s => (seatQuad s).getD srcQuad | none => srcQuad, r.dest)
    | _ => (r.dest % 8, 0xFFFF)
  let pkt := mkPkt q r.role (if r.dkind = 0 then r.stamp else 0) seat r.lane r.opcount r.slot r.pri tag payload length arg
  d.send q (if q = srcQuad then 1 else 2) { pkt, sender, corrupt, subst }

/-- The quadrant of a stream's ENCODE seat group. -/
def Dev.streamQuad (d : Dev) (stream : Nat) : Nat :=
  match d.encParams stream with | some s => ((denseSeat s.seat).map (· / 144)).getD 0 | none => 0

/-- Bytes of the slot that an emission's batch stands in. -/
def Dev.emissionRoom (d : Dev) (stream : Nat) (packed : Bool) : Nat :=
  match d.encParams stream with
  | some s => if packed then upTo (packBound (fld s.params 12 4)) 64 else fld s.params 12 4
  | none => 0

/-- A batch goes to a role of this station (R41): its head, where it stands nowhere yet, and its trailer are written into the
slot, and LENGTH counts both. DESIGN CHOICE (log entry 77): of a trailer that does not fit the slot, the bytes that fit are written. -/
def Dev.emitLocal (d : Dev) (stream : Nat) (r : Route) (m : Emission) (a : Nat) (tr : Bytes) : Dev :=
  let d := if m.addr.isSome then d else d.mwrite a m.head
  let d := d.mwrite (a + m.length) (tr.take (d.emissionRoom stream m.packed - m.length))
  (d.routePacket r (d.streamQuad stream) (0xE000 + stream) m.tag.toNat a (m.length + tr.length) r.arg false false).emissionDone stream

/-- EMISSION_END (R41): the emission's bytes and its trailer have been sent; with none in progress, the next may start. -/
def Dev.emissionEnd (d : Dev) (stream : Nat) : Dev :=
  let e := d.emitSt stream
  match e.cur with
  | none => d.tryEmit stream
  | some m =>
    if m.sentAll then d
    else
      let body := d.emissionBody m
      let tr := trailer m.status m.packed m.tokens body
      let d1 := d.setEmit stream { e with cur := some { m with sentAll := true } }
      match d.emitRoute stream with
      | none => d.emissionDone stream
      | some r =>
        if r.dkind = 4 then
          { d1 with host := { d1.host with deliveries := d1.host.deliveries ++
            [{ ring := r.dest, stream := some stream, status := m.status, head := m.head, addr := m.addr.getD 0,
               length := if m.addr.isSome then m.length else 0, tail := tr }] } }
        else if r.dkind = 1 then
          match m.addr with
          | some a => d1.emitLocal stream r m a tr
          | none =>
            match d.encParams stream with
            | none => d1.emissionDone stream
            | some s => match m.slots, d.takeSlot (fld s.params 8 4) (fld s.params 12 4) with
              | a :: _, _ => d1.emitLocal stream r m a tr
              | [], some (a, d2) => (d2.setEmit stream { e with cur := some { m with sentAll := true } }).emitLocal stream r m a tr
              | [], none => d
        else
          let pkt := mkPkt r.dquad r.role 0 0xFFFF r.lane r.opcount r.slot r.pri m.tag.toNat 0 (m.length + 16) r.arg
          match d1.sendWaiting r.dest 0 r.tc (pkt ++ body ++ tr) (.emission stream) with
          | (some (_, d2), _) => d2
          | (none, d2) => d2.emissionDone stream

/-- RX_DELIVERY (R148): the oldest delivery of a completion ring goes into its oldest buffer; too short a buffer completes
with LEN_RANGE. A delivery to a ring that is not enabled is discarded (R139). -/
def Dev.rxDeliver (d : Dev) (ring : Nat) : Dev :=
  match d.host.deliveries.find? (fun x => x.ring == ring) with
  | none => d
  | some x =>
    let drop (d : Dev) : Dev :=
      let d := { d with host := { d.host with deliveries := d.host.deliveries.erase x } }
      match x.stream with | some s => d.emissionDone s | none => d
    if !(d.ringEn ring && d.ringKind ring == 1) then (drop d).lost ring
    else
      let r := d.ring ring
      match r.buffers with
      | [] => d
      | (o, a, cap) :: rest =>
        let total := x.head.length + x.length + x.tail.length
        let d1 := d.setRing ring { r with buffers := rest }
        if cap < total then d1.complete o none .lenRange 0 total
        else
          let body := x.head ++ d.mread x.addr x.length ++ x.tail
          (drop (d1.emit (.hostWrite a body true))).complete o none x.status (x.stream.getD 0) total

end Sys2Proof.Machine
end

