-- ==== Sys2Proof/Machine/Compress.lean ====
section
/-! DEFINITION. The compression engines: jobs, their checks, expansion and packing (R330 to R345). -/
namespace Sys2Proof.Machine

/-! Fields of a job (R146, R336) -/

def Job.user (b : Bytes) : Nat := fld b 4 4
def Job.tag (b : Bytes) : Nat := fld b 8 4 + fld b 12 2 * 2 ^ 32
def Job.inAlloc (b : Bytes) : Nat := fld b 16 4
def Job.inLen (b : Bytes) : Nat := fld b 20 4
def Job.inOfs (b : Bytes) : Nat := fld b 24 8
def Job.outAlloc (b : Bytes) : Nat := fld b 32 4
def Job.outCap (b : Bytes) : Nat := fld b 36 4
def Job.outOfs (b : Bytes) : Nat := fld b 40 8
def Job.origLen (b : Bytes) : Nat := fld b 48 4
def Job.check (b : Bytes) : Nat := fld b 52 4
def Job.pack (b : Bytes) : Bool := bit (fld b 56 1) 0
def Job.format (b : Bytes) : Nat := bits (fld b 56 1) 4 1
def Job.level (b : Bytes) : Nat := fld b 57 1
def Job.follow (b : Bytes) : Bool := bit (fld b 58 1) 0
def Job.envelope (b : Bytes) : Bool := bit (fld b 58 1) 1

/-- The header of R146 under OPCODE 0x04, as a drill's job must carry it too (R336). -/
def Job.headOk (b : Bytes) : Bool := fld b 0 1 == 4 && bits (fld b 1 1) 7 2 == 0 && fld b 2 2 == 0 && fld b 14 2 == 0

/-- R151 checks 3 to 6 on a job: the first that fails. -/
def Dev.jobChecks (d : Dev) (b : Bytes) : Option (Status × Nat) :=
  let reserved := bits (fld b 56 1) 7 5 != 0 || bits (fld b 58 1) 7 2 != 0 || bits (fld b 59 1) 7 5 != 0 || bits (fld b 61 1) 7 3 != 0
    || bits (fld b 62 2) 15 10 != 0 || (Job.pack b && (Job.origLen b != 0 || Job.check b != 0))
  if reserved || !Job.headOk b then some (.descInvalid, 3)
  else if Job.inLen b = m32 ∨ Job.outCap b = m32 ∨ Job.origLen b = m32 then some (.descInvalid, 4)
  else match d.alloc (Job.inAlloc b), d.alloc (Job.outAlloc b) with
    | some i, some o =>
      if i.size < Job.inOfs b + Job.inLen b ∨ o.size < Job.outOfs b + Job.outCap b then some (.lenRange, 0x10) else none
    | _, _ => some (.descInvalid, 5)

/-- The refusals of R333 and R337, at dispatch. -/
def Dev.jobRefused (d : Dev) (b : Bytes) : Bool :=
  match d.alloc (Job.inAlloc b), d.alloc (Job.outAlloc b) with
  | some i, some o =>
    let ia := i.base + Job.inOfs b
    let oa := o.base + Job.outOfs b
    Job.format b == 0 || 7 < Job.format b || (Job.pack b && Job.format b == 7)
      || (if Job.pack b then Job.level b == 0 || 9 < Job.level b || Job.envelope b else Job.level b != 0)
      || (!Job.follow b && !zeroAt b 59 5) || Job.inLen b == 0
      || (Job.outCap b != 0 && decide (ia < oa + Job.outCap b) && decide (oa < ia + Job.inLen b)) || bit o.flags 1
  | _, _ => true

/-- How a job ends: status, DETAIL, committed length, whether its output range is unspecified. -/
structure JobEnd where
  status : Status
  detail : Nat := 0
  len : Nat := 0
  spoiled : Bool := false
  deriving DecidableEq, Repr, Inhabited

def jobFail (st : Status) : JobEnd := { status := st, spoiled := true }

/-- The envelope of an expansion job (R339): ORIG_LEN, CHECK and format stream, or none for a fault in it. -/
def openEnvelope (b raw : Bytes) : Option (Nat × Nat × Bytes) :=
  if 32 ≤ raw.length && fld raw 0 4 == 0x5A454E56 && fld raw 4 1 == 1 && fld raw 5 1 == Job.format b && zeroAt raw 7 1
      && fld raw 12 4 == 0 && fld raw 30 2 == 0 && Job.origLen b == 0 && Job.check b == 0 && raw.length == 32 + fld raw 20 4 then
    some (fld raw 8 4, fld raw 16 4, raw.drop 32)
  else none

/-- CMP_RATIO; 0 acts as 1 (R345). -/
def Dev.ratio (d : Dev) (q : Nat) : Nat := max 1 (d.rf (qdrReg q 0x808) 15 0)

/-- An expansion (R339 to R343). A job that DECLARED_SIZE refuses reads its first and last line only. -/
def Dev.expandJob (d : Dev) (q : Nat) (b : Bytes) (ia oa : Nat) : Dev × JobEnd :=
  let n := Job.inLen b
  let raw := d.mread ia n
  let parts := if Job.envelope b then openEnvelope b raw else some (Job.origLen b, Job.check b, raw)
  let (d, bad) := d.touchAll [(ia, min n 64), (ia + n - 1, 1)]
  if bad then (d, jobFail .eccUncorrectable)
  else match parts with
    | none => (d, jobFail .format)
    | some (orig, check, stream) =>
      let x := Config.expand (Job.format b) stream
      match declaredWhy (d.ratio q) orig (Job.format b) (some (Job.outCap b)) stream x with
      | some 2 => (d, { status := .declaredSize })
      | some _ => (d, jobFail .format)
      | none =>
        let (d, bad) := d.touch (ia + 64) (n - 65)
        if bad then (d, jobFail .eccUncorrectable)
        else if Job.outCap b < x.data.length then (d, jobFail .outputFull)
        else if x.data.length ≠ orig ∨ !streamOk (Job.format b) stream x then (d, jobFail .format)
        else if (crc32c x.data).toNat ≠ check then (d, jobFail .checkMismatch)
        else (d.mwrite oa x.data, { status := .ok, len := orig })

/-- A packing: the envelope and the format stream, never longer than B(n) (R334, R339, R343). -/
def Dev.packJob (d : Dev) (b : Bytes) (tag ia oa : Nat) : Dev × JobEnd :=
  let n := Job.inLen b
  let (d, bad) := d.touch ia n
  if bad then (d, jobFail .eccUncorrectable)
  else
    let raw := d.mread ia n
    let stream := packStream (Job.format b) (Job.level b) raw
    if Job.outCap b < 32 + stream.length then (d, jobFail .outputFull)
    else
      let env := leB 4 0x5A454E56 ++ leB 1 1 ++ leB 1 (Job.format b) ++ leB 1 (Job.level b) ++ zeros 1 ++ leB 8 n
        ++ leB 4 (crc32c raw).toNat ++ leB 4 stream.length ++ leB 8 tag
      (d.mwrite oa (env ++ stream), { status := .ok, len := 32 + stream.length })

/-- What refuses a job at its dispatch, before any read: R151 checks 3 to 6, then R337. An expansion of a DECODE seat has no
descriptor that could be refused. -/
def Dev.jobBad (d : Dev) (j : CmpJob) : Option JobEnd :=
  match j.src with
  | .decode .. => none
  | _ => match d.jobChecks j.desc with
    | some (st, detail) => some { status := st, detail }
    | none => if d.jobRefused j.desc then some { status := .descInvalid } else none

/-- Run a job that its dispatch has let pass. A DECODE seat's page or body has been read with its task (R340). -/
def Dev.runJob (d : Dev) (q : Nat) (j : CmpJob) : Dev × JobEnd :=
  let b := j.desc
  match j.src with
  | .decode _ _ why => (d, { status := if why = 0 then .ok else if why = 1 then .format else .declaredSize })
  | _ => match d.alloc (Job.inAlloc b), d.alloc (Job.outAlloc b) with
    | some i, some o =>
      let (d, e) := if Job.pack b then d.packJob b j.tag (i.base + Job.inOfs b) (o.base + Job.outOfs b)
        else d.expandJob q b (i.base + Job.inOfs b) (o.base + Job.outOfs b)
      (if e.spoiled then d.scramble (o.base + Job.outOfs b) (Job.outCap b) else d, e)
    | _, _ => (d, { status := .descInvalid, detail := 5 })

/-- Counters of a job's end (R345). Of a DECODE seat's expansions, those that fail are counted and no others (R340, log
entry 95). -/
def Dev.countJob (d : Dev) (q : Nat) (pack : Bool) (j : CmpJob) (e : JobEnd) : Dev :=
  if (match j.src with | .decode .. => true | _ => false) && e.status == .ok then d else
  let off : Option Nat := match e.status with
    | .ok => some 0x810 | .outputFull => some 0x814 | .checkMismatch => some 0x818 | .declaredSize => some 0x81C
    | .format => some 0x820 | _ => none
  let d := match off with | some o => d.bump (qdrReg q o) | none => d
  if e.status = .ok then
    let x := d.pipe q pack
    let i := x.inRest + Job.inLen j.desc
    let o := x.outRest + e.len
    ((d.setPipe q pack { x with inRest := i % 1024, outRest := o % 1024 }).bump (qdrReg q 0x824) (i / 1024)).bump (qdrReg q 0x828) (o / 1024)
  else d

/-- The follow-on task of a job that ended with OK (R338). -/
def Dev.followOn (d : Dev) (b : Bytes) (sender tag outAddr len : Nat) : Dev :=
  let q := bits (fld b 61 1) 2 0
  let slot := bits (fld b 59 1) 1 0
  d.send q 3 { pkt := mkPkt q (fld b 60 1) 0 0xFFFF (bits (fld b 62 2) 9 0) (slot + 1) slot (bits (fld b 59 1) 4 2) tag outAddr len (Job.user b)
               sender }

/-- Post a job's end to whoever gave it (R344, R152, R40). -/
def Dev.postJob (d : Dev) (q : Nat) (j : CmpJob) (e : JobEnd) : Dev :=
  match j.src with
  | .ring uid => (d.updTask q uid (fun t => { t with phase := .finished, status := e.status, detail := e.detail, result := e.len })).promote q
  | .decode c uid _ =>
    let x := d.ich c
    match x.work with
    | some w =>
      if w.uid ≠ uid then d
      else if e.status = .cancelled then
        d.setIch c { x with work := some { w with items := [], toExpand := [], inPipe := 0, status := .cancelled } }
      else d.setIch c { x with work := some { w with inPipe := w.inPipe - 1 } }
    | none => d
  | .drill =>
    let m : List Word := [BitVec.ofNat 32 (e.status.code + e.detail * 256), BitVec.ofNat 32 e.len, BitVec.ofNat 32 (Job.user j.desc), 0, 0, 0, 0, 0]
    if (tget [] (d.tutor (1224 + q)).queues 0x0D).length < 8 then d.toQueue (1224 + q) 0x0D m else d
  | .encode stream tag =>
    match (d.emitSt stream).batch tag with
    | none => d
    | some b =>
      if e.status = .ok then d.batchReady stream { b with packing := false, packed := b.packed.map (fun p => (p.1, e.len)) }
      else d.batchReady stream { b with packing := false, fail := some e.status }

/-- End a job: counters, follow-on task, completion or reply (R338, R343). -/
def Dev.endJob (d : Dev) (q : Nat) (pack : Bool) (j : CmpJob) (e : JobEnd) : Dev :=
  let d := d.countJob q pack j e
  let d := if e.status = .ok ∧ Job.follow j.desc then match d.alloc (Job.outAlloc j.desc) with
    | some o => d.followOn j.desc (if j.src = .drill then 0xFFFE else 0xFFFF) j.tag (o.base + Job.outOfs j.desc) e.len
    | none => d else d
  d.postJob q j e

/-- Compression jobs whose turn has come enter their pipe's ring queue while it has room (R330, R331, R402): the scheduler's
selection of them (R95). -/
def Dev.cmpEnter (d : Dev) (q : Nat) : Dev :=
  if !d.rbit (qdrReg q 0) 0 || !d.dispatching || d.plt.seating then d
  else (d.quad q).tasks.foldl (fun d t =>
    match t.role, t.phase with
    | 255, .ready _ _ =>
      let pack := Job.pack t.params
      let x := d.pipe q pack
      if 64 ≤ x.ring.length then d
      else ((d.updTask q t.uid (fun t => { t with phase := .seated_, selStep := d.step })).setPipe q pack
        { x with ring := x.ring ++ [{ desc := t.params, src := .ring t.uid, tag := t.tag.toNat }] }).promote q
    | _, _ => d) d

/-- The queue a free pipe serves next (R330): its number and oldest job, and the pipe without it. -/
def PipeSt.next (x : PipeSt) : Option (CmpJob × PipeSt) :=
  let take (k : Nat) : Option (CmpJob × PipeSt) := match k with
    | 0 => (match x.ring with | j :: t => some (j, { x with ring := t, last := 0 }) | [] => none)
    | 1 => (match x.seat_ with | j :: t => some (j, { x with seat_ := t, last := 1 }) | [] => none)
    | _ => (match x.drill with | j :: t => some (j, { x with drill := t, last := 2 }) | [] => none)
  ([1, 2, 3].filterMap (fun i => take ((x.last + i) % 3))).head?

/-- Batches of a quadrant that wait for a packed-batch slot (R40). -/
def Dev.packWaiting (d : Dev) (q : Nat) : Dev :=
  d.emits.foldl (fun d e => e.2.batches.foldl (fun d b =>
    if b.closed ∧ b.packing ∧ b.packed.isNone ∧ d.streamQuad e.1 = q then d.packBatch e.1 b else d) d) d

/-- The end of a drill's job waits until the tutor's queue has room for its reply. -/
def Dev.replyWaits (d : Dev) (q : Nat) (j : CmpJob) : Bool :=
  j.src == .drill && decide (8 ≤ (tget [] (d.tutor (1224 + q)).queues 0x0D).length)

/-- CMP_JOB_START (R330, R402): a free pipe takes the oldest job of the next non-empty queue. One that its dispatch refuses ends
there and leaves the pipe free (R337). -/
def Dev.jobStart (d : Dev) (q : Nat) (pack : Bool) : Dev :=
  let d := if pack then d.packWaiting q else d
  let x := d.pipe q pack
  if x.run.isSome ∨ !d.rbit (qdrReg q 0x800) 0 ∨ !d.dispatching then d
  else match x.next with
    | some (j, y) => match d.jobBad j with
      | some e => if d.replyWaits q j then d else (d.setPipe q pack y).endJob q pack j e
      | none => d.setPipe q pack { y with run := some j }
    | none => d

/-- CMP_JOB_END (R343): the running job ends. -/
def Dev.jobEnd (d : Dev) (q : Nat) (pack : Bool) : Dev :=
  match (d.pipe q pack).run with
  | none => d
  | some j =>
    if d.replyWaits q j then d
    else
    let (d, e) := d.runJob q j
    (d.setPipe q pack { d.pipe q pack with run := none }).endJob q pack j e

/-- A full switch ends every job, queued or running, with CANCELLED (R331, R342). -/
def Dev.cmpSwitch (d : Dev) : Dev :=
  let d := (List.range 16).foldl (fun d i =>
    let q := i / 2
    let pack := i % 2 == 1
    let x := d.pipe q pack
    let js := x.run.toList ++ x.ring ++ x.seat_ ++ x.drill
    js.foldl (fun d j =>
      let d := match d.alloc (Job.outAlloc j.desc) with
        | some o => d.scramble (o.base + Job.outOfs j.desc) (min (Job.outCap j.desc) (o.size - Job.outOfs j.desc))
        | none => d
      d.postJob q j { status := .cancelled })
      (d.setPipe q pack { x with run := none, ring := [], seat_ := [], drill := [] })) d
  d

/-- CMP_SUBMIT.GO (R344): copy the staging registers into the drill queue, or set STAGE_FULL. -/
def Dev.cmpSubmit (d : Dev) (q : Nat) : Dev :=
  let desc := (List.range 32).flatMap (fun i => leB 2 (d.rf (qdrReg q (0x840 + 4 * i)) 15 0))
  let x := d.pipe q (Job.pack desc)
  if 8 ≤ x.drill.length then d.wbit (qdrReg q 0x804) 2 true
  else d.setPipe q (Job.pack desc) { x with drill := x.drill ++ [{ desc, src := .drill, tag := Job.tag desc }] }

/-- CMP_CLR.CLEAR (R345). -/
def Dev.cmpClear (d : Dev) (q : Nat) : Dev :=
  let d := d.zeroRegs (qdrReg q 0x810) 7
  [false, true].foldl (fun d pack => let x := d.pipe q pack
    if x.inRest = 0 ∧ x.outRest = 0 then d else d.setPipe q pack { x with inRest := 0, outRest := 0 }) d

/-- CMP_STATUS and CMP_QDEPTH as they read. -/
def Dev.cmpStatus (d : Dev) (q : Nat) : Nat :=
  d.rn (qdrReg q 0x804) / 4 * 4 + b2n (d.pipe q false).run.isSome + 2 * b2n (d.pipe q true).run.isSome
def PipeSt.depth (x : PipeSt) : Nat := x.ring.length + x.seat_.length + x.drill.length
def Dev.cmpDepth (d : Dev) (q : Nat) : Nat := (d.pipe q true).depth * 256 + (d.pipe q false).depth

end Sys2Proof.Machine
end

