-- ==== Sys2Proof/Machine/Frames.lean ====
section
/-! DEFINITION. Reading an Ethernet frame from its bytes (R181 to R183, R199). The layouts of Ethernet II, 802.1Q, 802.1Qbb, ARP,
IPv4, IPv6, UDP, Neighbour Discovery and RoCEv2 are those of the standards that the spec names (log entry 97). -/
namespace Sys2Proof.Machine

/-- RoCEv2 request opcodes of the RC transport (R199). -/
inductive RoceOp where
  | writeFirst | writeMiddle | writeLast | writeOnly | sendFirst | sendMiddle | sendLast | sendOnly | other
  deriving DecidableEq, Repr, Inhabited

def RoceOp.isSend : RoceOp → Bool
  | .sendFirst | .sendMiddle | .sendLast | .sendOnly => true
  | _ => false
def RoceOp.starts : RoceOp → Bool
  | .writeFirst | .writeOnly | .sendFirst | .sendOnly => true
  | _ => false
def RoceOp.ends : RoceOp → Bool
  | .writeLast | .writeOnly | .sendLast | .sendOnly => true
  | _ => false

/-- A RoCEv2 request packet (R199, R200). -/
structure RocePkt where
  op : RoceOp
  qpn : Nat
  psn : Nat
  ackReq : Bool
  /-- R_Key, virtual address and length of the whole message, as the RETH of the first packet of a WRITE gives them. -/
  rkey : Nat
  va : Nat
  dmaLen : Nat
  imm : Option Nat
  /-- The packet is marked CE. -/
  ce : Bool
  data : Bytes
  deriving DecidableEq, Repr, Inhabited

/-- A UDP datagram and the addresses around it. -/
structure Datagram where
  v6 : Bool
  src : Nat
  dst : Nat
  sport : Nat
  dport : Nat
  ce : Bool
  data : Bytes
  deriving DecidableEq, Repr, Inhabited

/-- What an Ethernet frame carries, told apart as R183 does. -/
inductive EthBody where
  /-- PFC: the class-enable vector and eight quanta. -/
  | pfc (mask : Nat) (quanta : List Nat)
  /-- An ARP request, or a Neighbour Solicitation (`v6`), for an address, and the sender's address. -/
  | addrReq (v6 : Bool) (target src : Nat)
  /-- An IP packet that row 5 of R183 drops. -/
  | badIp
  /-- An IP packet to an address that carries something other than UDP. -/
  | ip (v6 : Bool) (dst : Nat)
  | udp (u : Datagram)
  | other
  deriving DecidableEq, Repr, Inhabited

/-! The frame (R181, R183) -/

/-- A legal length, and the frame check sequence of 802.3 at its end. -/
def fcsOk (raw : Bytes) : Bool := 64 ≤ raw.length && fld raw (raw.length - 4) 4 == crc32 (raw.take (raw.length - 4))

def ethDst (raw : Bytes) : Nat := fldBe raw 0 6
def ethSrc (raw : Bytes) : Nat := fldBe raw 6 6

/-- The tag control information of the frame's 802.1Q tag. -/
def ethTag (raw : Bytes) : Option Nat := if fldBe raw 12 2 = 0x8100 then some (fldBe raw 14 2) else none

/-- EtherType and what follows it, up to the frame check sequence. Behind one tag a second is no EtherType this port knows. -/
def ethPayload (raw : Bytes) : Nat × Bytes :=
  let off := if (ethTag raw).isSome then 16 else 12
  (fldBe raw off 2, (raw.take (raw.length - 4)).drop (off + 2))

/-! Checksums of the Internet protocols -/

/-- The ones' complement sum of 16-bit words, an odd byte padded with zero. -/
def inetSum (b : Bytes) : Nat :=
  let s := ((chunk 2 b).map (fun w => ofBe (padTo 2 w))).foldl (· + ·) 0
  (s % 65536 + s / 65536) % 65536 + (s % 65536 + s / 65536) / 65536

def beB (n v : Nat) : Bytes := (leB n v).reverse

/-- The UDP checksum over a datagram and its pseudo-header is right. -/
def udpSumOk (v6 : Bool) (src dst : Nat) (dgram : Bytes) : Bool :=
  let n := if v6 then 16 else 4
  inetSum (beB n src ++ beB n dst ++ beB 4 17 ++ beB 4 dgram.length ++ dgram) == 0xFFFF

/-- A UDP datagram (R183 row 5): its length, and its checksum, which may be zero over IPv4. -/
def udpBody (v6 : Bool) (src dst : Nat) (ce : Bool) (b : Bytes) : EthBody :=
  let sum := fldBe b 6 2
  if b.length < 8 ∨ fldBe b 4 2 ≠ b.length then .badIp
  else if !(if sum = 0 then !v6 else udpSumOk v6 src dst b) then .badIp
  else .udp { v6, src, dst, sport := fldBe b 0 2, dport := fldBe b 2 2, ce, data := b.drop 8 }

/-- The IP packet's length agrees with the frame: it fills it, or a frame of the least size is padded. -/
def ipFits (raw : Bytes) (total room : Nat) : Bool := total ≤ room && (total == room || raw.length == 64) && total ≤ 9000

/-- An IPv4 packet: no options, no fragment, right header checksum and lengths (R183 row 5). -/
def ipv4Body (raw b : Bytes) : EthBody :=
  let total := fldBe b 2 2
  let dst := fldBe b 16 4
  if b.length < 20 ∨ fld b 0 1 ≠ 0x45 ∨ total < 20 ∨ !ipFits raw total b.length ∨ fldBe b 6 2 % 0x4000 ≠ 0
      ∨ inetSum (b.take 20) ≠ 0xFFFF then .badIp
  else if fld b 9 1 = 17 then udpBody false (fldBe b 12 4) dst (fld b 1 1 % 4 == 3) (slice b 20 (total - 20))
  else .ip false dst

/-- IPv6 extension headers. -/
def isExtension (next : Nat) : Bool := [0, 43, 44, 50, 51, 60, 135, 139, 140, 253, 254].contains next

/-- An IPv6 packet without extension headers; a Neighbour Solicitation is an address request. -/
def ipv6Body (raw b : Bytes) : EthBody :=
  let total := 40 + fldBe b 4 2
  let next := fld b 6 1
  let src := fldBe b 8 16
  let dst := fldBe b 24 16
  if next = 58 ∧ fld b 40 1 = 135 ∧ fld b 41 1 = 0 ∧ 64 ≤ total ∧ fld b 0 1 / 16 = 6 then .addrReq true (fldBe b 48 16) src
  else if b.length < 40 ∨ fld b 0 1 / 16 ≠ 6 ∨ !ipFits raw total b.length ∨ isExtension next then .badIp
  else if next = 17 then udpBody true src dst (fldBe b 0 2 / 16 % 4 == 3) (slice b 40 (total - 40))
  else .ip true dst

/-- What a frame carries. Two tags, PAUSE and every other EtherType are `other`. -/
def ethBody (raw : Bytes) : EthBody :=
  let (kind, b) := ethPayload raw
  match kind with
  | 0x8808 => if fldBe b 0 2 = 0x0101 then .pfc (fldBe b 2 2 % 256) ((List.range 8).map (fun i => fldBe b (4 + 2 * i) 2)) else .other
  | 0x0806 => if fldBe b 0 8 = 0x0001080006040001 then .addrReq false (fldBe b 24 4) (fldBe b 14 4) else .other
  | 0x0800 => ipv4Body raw b
  | 0x86DD => ipv6Body raw b
  | _ => .other

/-! RoCEv2 (R199) -/

/-- A request opcode of the RC transport, and whether immediate data comes with it. -/
def roceOpcode (n : Nat) : RoceOp × Bool :=
  match n with
  | 0x00 => (.sendFirst, false) | 0x01 => (.sendMiddle, false) | 0x02 => (.sendLast, false) | 0x03 => (.sendLast, true)
  | 0x04 => (.sendOnly, false) | 0x05 => (.sendOnly, true) | 0x06 => (.writeFirst, false) | 0x07 => (.writeMiddle, false)
  | 0x08 => (.writeLast, false) | 0x09 => (.writeLast, true) | 0x0A => (.writeOnly, false) | 0x0B => (.writeOnly, true)
  | _ => (.other, false)

/-- The RoCEv2 packet of a datagram: base header, RETH, immediate data, payload without its padding and ICRC. -/
def rocePkt (u : Datagram) : RocePkt :=
  let b := u.data
  let (op, imm) := roceOpcode (fld b 0 1)
  let reth := op == .writeFirst || op == .writeOnly
  let i := if reth then 28 else 12
  let j := if imm then i + 4 else i
  let pad := bits (fld b 1 1) 5 4
  { op, qpn := fldBe b 5 3, psn := fldBe b 9 3, ackReq := bit (fld b 8 1) 7
    va := if reth then fldBe b 12 8 else 0, rkey := if reth then fldBe b 20 4 else 0, dmaLen := if reth then fldBe b 24 4 else 0
    imm := if imm then some (fldBe b i 4) else none, ce := u.ce, data := slice b j (b.length - 4 - pad - j) }

end Sys2Proof.Machine
end

