-- ==== Sys2Proof/Machine/Stream.lean ====
section
/-! DEFINITION. Live event streams: sequence tracking, watermarks, alignment groups and blocks, producer back-pressure and
key-of-interest fall-back (R184 to R198). -/
namespace Sys2Proof.Machine

/-! Entries and groups, as their registers hold them (R187, R207) -/

def Dev.str (d : Dev) (s : Nat) : StrSt := tget {} d.strs s
def Dev.setStr (d : Dev) (s : Nat) (x : StrSt) : Dev := { d with strs := tput d.strs s x }
def Dev.grp (d : Dev) (g : Nat) : GrpSt := tget {} d.grps g
def Dev.setGrp (d : Dev) (g : Nat) (x : GrpSt) : Dev := { d with grps := tput d.grps g x }

def Dev.strGroup (d : Dev) (s : Nat) : Nat := d.rf (strReg s 0) 27 24
def Dev.strPort (d : Dev) (s : Nat) : Nat := b2n (d.rbit (strReg s 0) 30)
def Dev.strId (d : Dev) (s : Nat) : Nat := d.rf (strReg s 0) 15 0
def Dev.recBytes (d : Dev) (s : Nat) : Nat := d.rf (strReg s 4) 12 0
/-- Valid members of a group, and those of them that are active (R187, R188). -/
def Dev.members (d : Dev) (g : Nat) : List Nat :=
  (d.strs.filter (fun e => e.2.valid && d.strGroup e.1 == g)).map (·.1)
def Dev.activeStreams (d : Dev) (g : Nat) : List Nat := (d.members g).filter (fun s => !(d.str s).idle)

def Dev.grpT0 (d : Dev) (g : Nat) : Nat := d.rn2 (grpReg g 8)
def Dev.grpSpan (d : Dev) (g : Nat) : Nat := d.rn2 (grpReg g 0x10)
def Dev.grpLateness (d : Dev) (g : Nat) : Nat := d.rn2 (grpReg g 0x18)
/-- B_k of R189. -/
def Dev.blockAt (d : Dev) (g k : Nat) : Nat := d.grpT0 g + k * d.grpSpan g
/-- Blocks that a group watermark would have closed: the first that it leaves open (R189). -/
def Dev.closable (d : Dev) (g w : Nat) : Nat :=
  let base := d.grpT0 g + d.grpLateness g
  if w < base + d.grpSpan g then 0 else (w - base) / max 1 (d.grpSpan g)

/-- Records in a group's alignment buffer: those of open blocks, and of a closed block until it is written. -/
def GrpSt.held (x : GrpSt) : List StrRec := x.buf ++ (match x.closed with | some b => b.recs | none => [])

/-- Buffer occupancy in KiB, a part of one counted whole (R195). -/
def Dev.grpOcc (d : Dev) (g : Nat) : Nat := ceilDiv (((d.grp g).held.map (·.data.length)).foldl (· + ·) 0) 1024

/-! Pauses (R183, R195, R196) -/

/-- Timebase cycles that a pause lasts: a quantum is 512 bit times at 800 Gb/s, 0.64 ns (R196). -/
def pauseTime (quanta : Nat) : Nat := ceilDiv (quanta * 256) 1000

/-- Send one PFC frame: the last sent governs at the producer (R196). -/
def Dev.sendPfc (d : Dev) (port pri quanta : Nat) : Dev :=
  let x := d.eth port
  let d := d.setEth port { x with pausing := if quanta = 0 then tdel x.pausing pri else tput x.pausing pri (d.now + pauseTime quanta) }
  (d.emit (.pfc port pri quanta)).bump (prtReg (4 + port) 0x20)

/-- The largest quanta that the groups in pause request for a priority on a port (R195). -/
def Dev.pfcWanted (d : Dev) (port pri : Nat) : Nat :=
  (List.range 16).foldl (fun m g =>
    if (d.grp g).pfc && bit (d.rf (grpReg g 0) 27 20) pri && (d.members g).any (fun s => d.strPort s == port)
    then max m (d.rf (grpReg g 0x50) 31 16) else m) 0

/-- Send a group's PFC frames: on each port with a member stream, for every priority of PFC_PRI. -/
def Dev.groupPfc (d : Dev) (g : Nat) : Dev :=
  let ports := [0, 1].filter (fun p => (d.members g).any (fun s => d.strPort s == p))
  let pris := (List.range 8).filter (bit (d.rf (grpReg g 0) 27 20) ·)
  ports.foldl (fun d p => pris.foldl (fun d i => d.sendPfc p i (d.pfcWanted p i)) d) d

/-- Bring a group's pause and fall-back in line with its occupancy (R195). `port` counts KOI_ENTRY. -/
def Dev.grpMarks (d : Dev) (g port : Nat) : Dev :=
  let occ := d.grpOcc g
  let x := d.grp g
  let d :=
    if d.rbit (grpReg g 0) 28 && !x.pfc && d.rf (grpReg g 0x48) 31 16 < occ then (d.setGrp g { x with pfc := true }).groupPfc g
    else if x.pfc && occ ≤ d.rf (grpReg g 0x48) 15 0 then (d.setGrp g { x with pfc := false }).groupPfc g
    else d
  let x := d.grp g
  if d.rbit (grpReg g 0) 29 && !x.koi && d.rf (grpReg g 0x4C) 31 16 < occ then
    (d.setGrp g { x with koi := true, blockKoi := true }).bump (prtReg (4 + port) 0x34)
  else if x.koi && occ ≤ d.rf (grpReg g 0x4C) 15 0 && x.spill.isEmpty then d.setGrp g { x with koi := false }
  else d

/-! The key-of-interest filter (R197) -/

/-- Bit numbers of a key in a filter of 2^n bits. -/
def koiBits (n key : Nat) : List Nat :=
  let h := (mix64 (BitVec.ofNat 64 key)).toNat
  let block := h * 2 ^ (n - 9) / 2 ^ 64
  [bits h 8 0, bits h 17 9, bits h 26 18, bits h 35 27].map (· + block * 512)

def Dev.koiLog (d : Dev) (g : Nat) : Nat := d.rf (grpReg g 0x3C) 5 0

/-- A record placed or spilled marks its key in the live half. -/
def Dev.koiMark (d : Dev) (g key : Nat) : Dev :=
  if d.rbit (grpReg g 0) 29 then
    let x := d.grp g
    d.setGrp g { x with live := dedup (x.live ++ koiBits (d.koiLog g) key) }
  else d

def Dev.ofInterest (d : Dev) (g key : Nat) : Bool := (koiBits (d.koiLog g) key).all ((d.grp g).active.contains ·)

/-! Records (R190 to R192, R198) -/

/-- The order of records in a block (R192). -/
def StrRec.le (a b : StrRec) : Bool :=
  let ka := [a.time, a.sid, a.port, a.seq, a.idx]
  let kb := [b.time, b.sid, b.port, b.seq, b.idx]
  let rec go : List Nat → List Nat → Bool
    | x :: xs, y :: ys => x < y || (x == y && go xs ys)
    | _, _ => true
  go ka kb

/-- A late record, or one treated as late: counted, dropped, or offered to LATE_RING (R191). -/
def Dev.lateRecord (d : Dev) (g reason : Nat) (r : StrRec) : Dev :=
  let d := (d.bump (strReg r.entry 0x28)).bump (grpReg g 0x68)
  if d.rbit (grpReg g 0) 30 then
    d.offer (d.rf (grpReg g 0x50) 13 0) 7 r.sid false
      (leB 8 r.time ++ leB 8 r.key ++ leB 8 r.seq ++ leB 1 g ++ leB 1 reason ++ leB 2 (r.entry + r.port * 0x8000) ++ leB 4 r.idx
        ++ slice r.data 16 16)
  else d

/-- Bytes of a spill ring that its records take: each whole, with its frame's SEQ. -/
def spillBytes (l : List StrRec) : Nat := (l.map (fun r => r.data.length + 8)).foldl (· + ·) 0

/-- A record is placed, spilled, or late (R191, R198). -/
def Dev.placeRecord (d : Dev) (g : Nat) (r : StrRec) : Dev :=
  let x := d.grp g
  if r.time < d.blockAt g x.block then d.lateRecord g 0 r
  else if x.koi && !d.ofInterest g r.key then
    let cap := match d.alloc (d.rn (grpReg g 0x34)) with | some a => a.size | none => 0
    if cap < spillBytes (x.spill ++ [r]) then (d.bump (grpReg g 0x70)).lateRecord g 1 r
    else ((d.koiMark g r.key).setGrp g { (d.koiMark g r.key).grp g with spill := x.spill ++ [r] }).bump (grpReg g 0x6C)
  else
    let d := d.koiMark g r.key
    (d.setGrp g { (d.grp g) with buf := x.buf ++ [r] }).grpMarks g r.port

/-- SPILL_DRAIN (R198): the oldest spilled record returns to the buffer, or is late by now. -/
def Dev.spillDrain (d : Dev) (g : Nat) : Dev :=
  let x := d.grp g
  match x.spill with
  | [] => d
  | r :: rest =>
    if d.rf (grpReg g 0x4C) 15 0 < d.grpOcc g then d
    else
      let d := d.setGrp g { x with spill := rest }
      if r.time < d.blockAt g x.block then (d.lateRecord g 0 r).grpMarks g r.port
      else
        let d := d.koiMark g r.key
        (d.setGrp g { (d.grp g) with buf := (d.grp g).buf ++ [r] }).grpMarks g r.port

/-! Watermarks (R187, R188, R190) -/

def Dev.wm (d : Dev) (s : Nat) : Nat := d.rn2 (strReg s 0x18)
def Dev.grpWm (d : Dev) (g : Nat) : Nat := d.rn2 (grpReg g 0x78)

/-- The group watermark as its active streams give it (R188). -/
def Dev.leastWm (d : Dev) (g : Nat) : Nat :=
  match d.activeStreams g with
  | [] => d.grpWm g
  | s :: t => max (d.grpWm g) (t.foldl (fun m u => min m (d.wm u)) (d.wm s))

/-- Bring the group watermark up to date; `undo` is the state kept if it would close more than 2^20 blocks (R190). -/
def Dev.raiseWm (d undo : Dev) (g s : Nat) : Dev :=
  let w := d.leastWm g
  if 2 ^ 20 < d.closable g w - (d.grp g).block then (undo.wbit (grpReg g 4) 1 true).bump (strReg s 0x2C)
  else d.wn2 (grpReg g 0x78) w

/-! Stream frames (R184 to R186) -/

/-- The valid stream entry of a port and stream number. -/
def Dev.streamEntry (d : Dev) (port sid : Nat) : Option Nat :=
  (d.strs.find? (fun e => e.2.valid && d.strPort e.1 == port && d.strId e.1 == sid)).map (·.1)

/-- Whether a frame is well formed (R185). -/
def frameOk (b : Bytes) (rb : Nat) : Bool :=
  32 ≤ b.length && fld b 0 2 == 0xA6E1 && fld b 2 1 == 1 && bits (fld b 3 1) 7 2 == 0 && fld b 28 4 == 0
    && fld b 24 4 == fld b 6 2 * rb && fld b 24 4 == b.length - 32

/-- Sequence tracking (R186): the entry after an accepted frame and frames lost, or none for a duplicate. -/
def StrSt.accept (x : StrSt) (high seq : Nat) : Option (StrSt × Nat × Nat) :=
  if !x.seen then some ({ x with seen := true, first := seq, map := 1 }, seq, 0)
  else if high < seq then
    let step := seq - high
    let gone := (List.range 64).filter (fun i => 64 ≤ i + step && !bit x.map i && decide (x.first < high - i) && decide (i ≤ high))
    some ({ x with map := x.map * 2 ^ step % 2 ^ 64 + 1 }, seq, gone.length + (step - 64))
  else
    let i := high - seq
    if 64 ≤ i ∨ bit x.map i then none else some ({ x with map := x.map + 2 ^ i }, high, 0)

/-- The records of a frame. -/
def frameRecords (d : Dev) (port s : Nat) (b : Bytes) : List StrRec :=
  let rb := d.recBytes s
  (List.range (fld b 6 2)).map (fun i =>
    let r := slice b (32 + i * rb) rb
    { time := fld r 0 8, key := fld r 8 8, sid := d.strId s, port, seq := fld b 8 8, idx := i, entry := s, data := r })

/-- A stream frame's payload reaches stream intake (R184 to R191, R197, R198). -/
def Dev.streamFrame (d : Dev) (port : Nat) (b : Bytes) : Dev :=
  match d.streamEntry port (fld b 4 2) with
  | none => d.bump (prtReg (4 + port) 0xC)
  | some s =>
    let x := d.str s
    let g := d.strGroup s
    if !frameOk b (d.recBytes s) then d.bump (strReg s 0x2C)
    else match x.accept (d.rn2 (strReg s 0x10)) (fld b 8 8) with
      | none => d.bump (strReg s 0x24)
      | some (x, high, lost) =>
        let d := ((d.wn2 (strReg s 0x10) high).bump (strReg s 0x20) lost).setStr s { x with idle := false, quiet := 0 }
        let recs := frameRecords d port s b
        let d := recs.foldl (fun d r => d.placeRecord g r) d
        let cand := if d.rbit (strReg s 0) 29 then recs.foldl (fun m r => max m (r.time - d.rn2 (strReg s 8))) 0
          else if bit (fld b 3 1) 0 then fld b 16 8 else 0
        let undo := d
        let d := (d.wn2 (strReg s 0x18) (max (d.wm s) cand)).raiseWm undo g s
        if bit (fld b 3 1) 1 then
          let e := d.setStr s { (d.str s) with idle := true }
          e.raiseWm e g s
        else d

/-- STREAM_IDLE (R188): no accepted frame for IDLE_BELLS bells. -/
def Dev.streamIdle (d : Dev) (s : Nat) : Dev :=
  let x := d.str s
  let g := d.strGroup s
  if x.valid && !x.idle && max 1 (d.rf (grpReg g 0x54) 15 0) ≤ x.quiet then
    let e := d.setStr s { x with idle := true }
    e.raiseWm e g s
  else d

/-! Blocks (R189, R193, R194) -/

/-- A record in a block: prefix and padding (R193). -/
def StrRec.bytes (r : StrRec) : Bytes :=
  leB 2 r.sid ++ leB 2 r.data.length ++ leB 1 r.port ++ zeros 3 ++ padMul 8 r.data

/-- The longest run of records from the first that a space holds, and the rest. -/
def fitRecords (room : Nat) : List StrRec → List StrRec × List StrRec
  | [] => ([], [])
  | r :: t =>
    let n := 8 + upTo r.data.length 8
    if room < n then ([], r :: t) else let (a, b) := fitRecords (room - n) t; (r :: a, b)

/-- A task packet for a TARGET register (R194, R201, R204). -/
def targetPkt (target tag payload length arg : Nat) : Nat × Bytes :=
  let q := bits target 28 26
  let slot := bits target 25 24
  (q, mkPkt q (bits target 7 0) 0 0xFFFF (bits target 20 11) (slot + 1) slot (bits target 23 21) tag payload length arg)

/-- Close a group's lowest open block once its watermark has come (R189): it takes the next tag, and its records are fixed. -/
def Dev.closeBlock (d : Dev) (g : Nat) : Dev :=
  let x := d.grp g
  let k := x.block
  let tag := d.rn2 (grpReg g 0x20) % 2 ^ 48
  if !x.on || x.closed.isSome || d.closable g (d.grpWm g) ≤ k then d
  else if tag = 2 ^ 48 - 1 then d.wbit (grpReg g 4) 1 true
  else
    let mine (r : StrRec) : Bool := r.time < d.blockAt g (k + 1)
    let d := d.setGrp g { x with
      block := k + 1, buf := x.buf.filter (fun r => !mine r)
      closed := some { k, tag, wm := d.grpWm g, koi := x.blockKoi, recs := sortBy StrRec.le (x.buf.filter mine) } }
    let d := (d.wn2 (grpReg g 0x20) (tag + 1)).bump (grpReg g 0x64)
    if tag + 1 = 2 ^ 48 - 1 then d.wbit (grpReg g 4) 1 true else d

/-- Write a closed block to the next slot and hand it over (R193, R194); with no free slot it waits. -/
def Dev.writeBlock (d : Dev) (g : Nat) : Dev :=
  let slotB := d.rn (grpReg g 0x2C)
  match (d.grp g).closed with
  | none => d
  | some c => match d.takeSlot (d.rn (grpReg g 0x28)) slotB with
    | none => d
    | some (a, d) =>
      let (fit, ovf) := fitRecords (slotB - 64) c.recs
      let body := fit.flatMap StrRec.bytes
      let head := leB 8 c.tag ++ leB 8 (d.blockAt g c.k) ++ leB 8 c.wm ++ leB 4 fit.length ++ leB 4 body.length ++ leB 1 g
        ++ leB 1 (b2n c.koi + 2 * b2n (ovf != [])) ++ zeros 30
      let d := (d.mwrite a (head ++ body)).setGrp g { d.grp g with closed := none }
      let d := ovf.foldl (fun d r => (d.bump (grpReg g 0x74)).lateRecord g 2 r) d
      let (q, pkt) := targetPkt (d.rn (grpReg g 0x40)) c.tag a (64 + body.length) (d.rn (grpReg g 0x44))
      let port := match d.members g with | s :: _ => d.strPort s | [] => 0
      (d.send q 2 { pkt, sender := 0x6004 + port }).grpMarks g port

/-- BLOCK_CLOSE (R189, R193, R194). -/
def Dev.blockClose (d : Dev) (g : Nat) : Dev := (d.closeBlock g).writeBlock g

/-- PFC_REPEAT (R195): a pause in force is sent again. -/
def Dev.pfcRepeat (d : Dev) (g : Nat) : Dev := if (d.grp g).pfc then d.groupPfc g else d

/-- PFC_PAUSE of the timetable (R196). -/
def Dev.pfcPause (d : Dev) (arg : Nat) : Dev := d.sendPfc (bits arg 0 0) (bits arg 3 1) (min 65535 (bits arg 15 8 * 512))

/-! Enabling, and the bell (R187, R188, R195, R197) -/

/-- The group's marks and span let it be enabled (R195, R207). -/
def Dev.grpOk (d : Dev) (g : Nat) : Bool :=
  let size := match d.alloc (d.rn (grpReg g 0x30)) with | some a => a.size / 1024 | none => 0
  d.grpSpan g != 0 && d.rf (grpReg g 0x48) 15 0 ≤ d.rf (grpReg g 0x48) 31 16
    && d.rf (grpReg g 0x48) 31 16 < d.rf (grpReg g 0x4C) 15 0 && d.rf (grpReg g 0x4C) 15 0 ≤ d.rf (grpReg g 0x4C) 31 16
    && d.rf (grpReg g 0x4C) 31 16 ≤ size

/-- Bring the stream entries in line with their VALID bits and their groups (R187, R188): a stream that leaves a group no longer
holds its watermark back. -/
def Dev.syncStreams (d : Dev) (ss : List Nat) : Dev :=
  ss.foldl (fun d s =>
    let x := d.str s
    let on := d.rbit (strReg s 0) 31 && (d.grp (d.strGroup s)).on
    if on && !x.valid then
      ((d.setStr s { valid := true }).wn2 (strReg s 0x10) 0).wn2 (strReg s 0x18) 0
    else if !on && x.valid then let e := d.setStr s { x with valid := false }; e.raiseWm e (d.strGroup s) s
    else d) d

/-- A write of ETH_GRP_[g]_CTL has changed EN, or tried to (R195, R207). What the buffer, the spill ring and the filter hold
is kept beside memory: the spec gives their bytes no layout. -/
def Dev.grpEnable (d : Dev) (g : Nat) (was : Bool) : Dev :=
  let now_ := d.rbit (grpReg g 0) 31
  if now_ && !was then
    if d.grpOk g then
      let d := (d.setGrp g { on := true }).wn2 (grpReg g 0x78) 0
      let d := [0x30, 0x34, 0x38].foldl (fun d o => match d.alloc (d.rn (grpReg g o)) with
        | some a => d.scramble a.base a.size
        | none => d) d
      d.syncStreams (List.range 1024)
    else (d.wbit (grpReg g 0) 31 false).wbit (grpReg g 4) 31 true
  else if !now_ && was then
    let x := d.grp g
    let d := d.setGrp g { x with on := false, pfc := false }
    let d := if x.pfc then d.groupPfc g else d
    d.syncStreams (List.range 1024)
  else d

/-- What a bell does to streams and filters (R188, R197). -/
def Dev.streamBell (d : Dev) : Dev :=
  { d with strs := d.strs.map (fun (e : Nat × StrSt) => (e.1, if e.2.valid then { e.2 with quiet := e.2.quiet + 1 } else e.2))
           grps := d.grps.map (fun (e : Nat × GrpSt) => (e.1, if e.2.on then { e.2 with active := e.2.live, live := [] } else e.2)) }

/-- Registers that show what the streams hold; none for a register that is held as written. -/
def Dev.grpView (d : Dev) (g off : Nat) : Option Nat :=
  match off with
  | 0x04 => some (d.rn (grpReg g 4) + b2n ((d.grp g).on && (d.activeStreams g).isEmpty) + 4 * b2n (d.grp g).pfc + 8 * b2n (d.grp g).koi)
  | 0x60 => some (d.grpOcc g)
  | _ => none

end Sys2Proof.Machine
end

