-- ==== Sys2Proof/Machine/Ether.lean ====
section
/-! DEFINITION. The Ethernet ports: receive classification, replies, the RoCEv2 responder, the lookup service (R181 to R183,
R199 to R207). -/
namespace Sys2Proof.Machine

/-! Ports (R181 to R183) -/

/-- Address of a counter of the port's window (R207). -/
def ethCnt (p off : Nat) : Nat := prtReg (4 + p) off
def Dev.ethOn (d : Dev) (p : Nat) : Bool := (d.eth p).up && d.rbit (ethReg p 0) 31 && (d.seat (1300 + p)).role == 15
def Dev.ethMac (d : Dev) (p : Nat) : Nat := d.rn2 (ethReg p 8) % 2 ^ 48
def Dev.ethIp4 (d : Dev) (p : Nat) : Nat := d.rn (ethReg p 0x10)
def Dev.ethIp6 (d : Dev) (p : Nat) : Nat := d.rn2 (ethReg p 0x14) + d.rn2 (ethReg p 0x1C) * 2 ^ 64

/-- An address is the port's own (0 means none). -/
def Dev.ownIp (d : Dev) (p : Nat) (v6 : Bool) (a : Nat) : Bool := a != 0 && a == (if v6 then d.ethIp6 p else d.ethIp4 p)

/-- The frame is addressed to the port (R183 row 3). -/
def Dev.ownMac (d : Dev) (p a : Nat) : Bool :=
  a == d.ethMac p || a == 2 ^ 48 - 1 || (d.ethIp6 p != 0 && a == 0x3333FF000000 + d.ethIp6 p % 2 ^ 24)

/-- The row of R183 that a frame falls under. -/
def Dev.classify (d : Dev) (p : Nat) (f : EthFrame) : Nat :=
  if f.fecLost ≠ 0 ∨ !fcsOk f.raw then 1
  else match ethBody f.raw with
    | .pfc _ _ => 2
    | body =>
      if !d.ownMac p (ethDst f.raw) then 3
      else match body with
        | .addrReq v6 target _ => if d.ownIp p v6 target then 4 else 10
        | .badIp => 5
        | .ip v6 dst => if d.ownIp p v6 dst then 10 else 6
        | .udp u =>
          if !d.ownIp p u.v6 u.dst then 6
          else if u.dport == 4791 && d.rbit (ethReg p 0) 26 then 7
          else if u.dport == d.rf (ethReg p 0x24) 15 0 && d.rbit (ethReg p 0) 25 then 8
          else if u.dport == d.rf (ethReg p 0x24) 31 16 && d.rbit (ethReg p 0) 27 then 9
          else 10
        | _ => 10

/-- Counter of a row (R183). -/
def rowCounter (row : Nat) : Option Nat :=
  match row with
  | 1 => some 0x04 | 2 => some 0x1C | 3 => some 0x0C | 5 => some 0x08 | 6 => some 0x0C
  | 7 => some 0 | 8 => some 0 | 9 => some 0 | 10 => some 0x0C | _ => none

/-- Put 32-byte messages into a port tutor's queue while it has room; whether some found it full. -/
def copyInto (t : Nat) : List Bytes → Dev → Dev × Bool
  | [], d => (d, false)
  | b :: r, d =>
    if (tget [] (d.tutor t).queues 0x0C).length < 8 then copyInto t r (d.toQueue t 0x0C (words (padTo 32 b))) else (d, true)

/-- Copy a frame to the port tutor if its drill asks for the row (R183, R207). -/
def Dev.frameCopy (d : Dev) (p row : Nat) (f : EthFrame) : Dev :=
  let want := d.rf (ethCnt p 0x40) 15 12
  if want = 0 ∨ want ≠ row then d
  else match copyInto (1236 + p) (chunk 32 f.raw) d with
    | (d, true) => d.bump (ethCnt p 0x38)
    | (d, false) => d

/-- ETH_FRAME (R183): classify, count, and hand on to the command of its row. -/
def Dev.ethFrame (d : Dev) (p : Nat) (f : EthFrame) : Dev :=
  if !d.ethOn p then d
  else
    let row := d.classify p f
    let d := (d.bump (ethCnt p 0x14) f.fecCorrected).bump (ethCnt p 0x18) f.fecLost
    let d := match rowCounter row with | some o => d.bump (ethCnt p o) | none => d
    let d := d.frameCopy p row f
    if row = 2 ∨ row = 4 ∨ (7 ≤ row ∧ row ≤ 9) then
      let x := d.eth p
      d.setEth p { x with rx := x.rx ++ [(row, f)] }
    else d

/-- Take the oldest frame of a row. -/
def Dev.takeFrame (d : Dev) (p row : Nat) : Option (EthFrame × Dev) :=
  let x := d.eth p
  match x.rx.find? (fun e => e.1 == row) with
  | some e => some (e.2, d.setEth p { x with rx := x.rx.erase e })
  | none => none

/-- The way of a reply to a frame (R182): addresses and ports swapped, the tag kept. A frame that was not sent to the port's own
MAC address, such as a broadcast, is answered from that address (log entry 97). -/
def Dev.wayBack (d : Dev) (p : Nat) (raw : Bytes) (v6 : Bool) (src dst sport dport : Nat) : EthWay :=
  { dmac := ethSrc raw, smac := d.ethMac p, tag := ethTag raw, v6, src := dst, dst := src, sport := dport, dport := sport }

/-- Send a reply on the priority of its tag, or keep it while a received pause holds that priority (R182, R183). -/
def Dev.ethSend (d : Dev) (p : Nat) (tag : Option Nat) (x : Sent) : Dev :=
  let pri := match tag with | some t => bits t 15 13 | none => d.rf (ethReg p 0) 30 28
  let e := d.eth p
  if e.paused.contains pri then d.setEth p { e with tx := e.tx ++ [(pri, x)] } else (d.emit x).bump (ethCnt p 0x10)

/-- Send what waited on a priority. -/
def Dev.resumeTx (d : Dev) (p pri : Nat) : Dev :=
  let e := d.eth p
  let go := e.tx.filter (fun t => t.1 == pri)
  let d := d.setEth p { e with paused := e.paused.filter (· != pri), tx := e.tx.filter (fun t => t.1 != pri) }
  go.foldl (fun d t => (d.emit t.2).bump (ethCnt p 0x10)) d

/-- PFC_FRAME (R183): a received pause takes effect on the priorities of PFC_RX_MASK; quanta 0 ends one. -/
def Dev.pfcFrame (d : Dev) (p : Nat) : Dev :=
  match d.takeFrame p 2 with
  | none => d
  | some (f, d) => match ethBody f.raw with
    | .pfc mask quanta =>
      ((List.range 8).filter (fun i => bit mask i && bit (d.rf (ethReg p 0) 23 16) i)).foldl (fun d i =>
        if quanta.getD i 0 = 0 then d.resumeTx p i
        else let e := d.eth p; if e.paused.contains i then d else d.setEth p { e with paused := e.paused ++ [i] }) d
    | _ => d

/-- PFC_RX_PAUSE_END (R183): the pause of a priority runs out. -/
def Dev.pfcPauseEnd (d : Dev) (p pri : Nat) : Dev := if (d.eth p).paused.contains pri then d.resumeTx p pri else d

/-- ADDRESS_REQUEST (R182): the request is answered from the address it asks for. -/
def Dev.addressRequest (d : Dev) (p : Nat) : Dev :=
  match d.takeFrame p 4 with
  | none => d
  | some (f, d) => match ethBody f.raw with
    | .addrReq v6 target src => d.ethSend p (ethTag f.raw) (.addrReply p (d.wayBack p f.raw v6 src target 0 0))
    | _ => d

/-- ETH_LINK_CHG (R181, R55): the link of a port in use comes up, or goes down. -/
def Dev.ethLinkChg (d : Dev) (p : Nat) (up : Bool) : Dev :=
  let x := d.eth p
  let d' :=
    if up && !x.up && d.rbit (ethReg p 0) 31 && (d.seat (1300 + p)).role == 15 && x.media != 0 && d.flt.stage < 2 then
      some ((d.setEth p { x with up := true }).wbit (ethReg p 4) 0 true)
    else if !up && x.up then some (d.ethLinkDown p)
    else none
  match d' with
  | some d => (d.fault (58 + p) p).raise (1236 + p) 6
  | none => d

/-- The datagram of the oldest frame of a row: the frame and the datagram. -/
def Dev.takeUdp (d : Dev) (p row : Nat) : Option (Bytes × Datagram × Dev) :=
  match d.takeFrame p row with
  | none => none
  | some (f, d) => match ethBody f.raw with
    | .udp u => some (f.raw, u, d)
    | _ => none

/-- STREAM_FRAME: the oldest stream frame of the port. -/
def Dev.streamIn (d : Dev) (p : Nat) : Dev :=
  match d.takeUdp p 8 with
  | some (_, u, d) => d.streamFrame p u.data
  | none => d

/-! The RoCEv2 responder (R199 to R201) -/

def Dev.qp (d : Dev) (q : Nat) : QpSt := tget {} d.qps q
def Dev.setQp (d : Dev) (q : Nat) (x : QpSt) : Dev := { d with qps := tput d.qps q x }

/-- The queue pair of a port and queue pair number. -/
def Dev.qpEntry (d : Dev) (p qpn : Nat) : Option Nat :=
  (List.range 512).find? (fun q => d.rbit (qpReg q 0) 31 && b2n (d.rbit (qpReg q 0) 30) == p && d.rf (qpReg q 0) 23 0 == qpn)

/-- What the responder does with a packet in sequence. -/
inductive RoceDo where
  | reject (what : RoceReply) (err : Bool)
  /-- Write the data at an address; the message's first byte, its length so far, its kind; whether it ends. -/
  | take (addr first len : Nat) (send last : Bool)
  deriving DecidableEq, Repr, Inhabited

/-- Judge a packet in sequence (R199, R200); `slot` is the receive slot that a new SEND would take. -/
def Dev.roceJudge (d : Dev) (q : Nat) (k : RocePkt) (slot : Option Nat) : RoceDo :=
  let x := d.qp q
  let n := k.data.length
  let cap := max 1 (d.rf (qpReg q 0x14) 15 0) * 1024
  let rnr : RoceDo := .reject (.rnr (d.rf (ethReg (b2n (d.rbit (qpReg q 0) 30)) 0x28) 31 27)) false
  if k.op = .other ∨ 4096 < n then .reject .nakInvalid false
  else if k.op.isSend then
    match k.op.starts, x.msg with
    | true, none => (match slot with
        | some a => if cap < n then .reject .nakInvalid false else .take a a n true k.op.ends
        | none => rnr)
    | false, some (a, len, true) => if cap < len + n then .reject .nakInvalid false else .take (a + len) a (len + n) true k.op.ends
    | _, _ => .reject .nakInvalid false
  else match d.alloc (d.rn (qpReg q 0xC)) with
    | none => .reject .nakAccess true
    | some w => match k.op.starts, x.msg with
      | true, none =>
        if k.rkey ≠ d.rn (qpReg q 8) ∨ w.size < k.va + max k.dmaLen n then .reject .nakAccess true
        else .take (w.base + k.va) (w.base + k.va) n false k.op.ends
      | false, some (a, len, false) =>
        if w.base + w.size < a + len + n then .reject .nakAccess true else .take (a + len) a (len + n) false k.op.ends
      | _, _ => .reject .nakInvalid false

/-- ROCE_PACKET (R199 to R201). -/
def Dev.rocePacket (d : Dev) (p : Nat) : Dev :=
  match d.takeUdp p 7 with
  | some (raw, u, d) =>
    let k := rocePkt u
    let way := d.wayBack p raw u.v6 u.src u.dst u.sport u.dport
    match d.qpEntry p k.qpn with
    | none => d
    | some q =>
      if d.rbit (qpReg q 0) 29 then d
      else
        let say (d : Dev) (what : RoceReply) : Dev :=
          d.ethSend p way.tag (.roce p way k.qpn k.psn (d.rf (qpReg q 0x24) 23 0) what)
        let nak (d : Dev) (what : RoceReply) : Dev := say (d.bump (ethCnt p 0x30)) what
        let x := d.qp q
        let gapT := d.rf (ethReg p 0x28) 19 0
        let quiet := match x.cnpAt with | some t => decide (t + gapT ≤ d.now) | none => true
        let d := if k.ce && quiet then say (d.setQp q { x with cnpAt := some d.now }) .cnp else d
        let x := d.qp q
        let epsn := d.rf (qpReg q 4) 23 0
        let ahead := (k.psn + 2 ^ 24 - epsn) % 2 ^ 24
        if 2 ^ 23 ≤ ahead then say d .ack
        else if ahead ≠ 0 then (if x.gap then d else nak (d.setQp q { x with gap := true }) .nakSequence)
        else
          let slotB := max 1 (d.rf (qpReg q 0x14) 15 0) * 1024
          let fresh := if k.op.isSend && k.op.starts && x.msg.isNone then d.takeSlot (d.rn (qpReg q 0x10)) slotB else none
          match d.roceJudge q k (fresh.map (·.1)) with
          | .reject what err =>
            let d := nak d what
            if err then d.wbit (qpReg q 0) 29 true else d
          | .take addr first len send last =>
            let d := match fresh with | some (_, d) => d | none => d
            let d := (d.mwrite addr k.data).wf (qpReg q 4) 23 0 ((epsn + 1) % 2 ^ 24)
            let d := d.setQp q { (d.qp q) with gap := false, msg := if last then none else some (first, len, send) }
            let d := if last then d.wf (qpReg q 0x24) 23 0 ((d.rf (qpReg q 0x24) 23 0 + 1) % 2 ^ 24) else d
            let d := if last && (send || k.imm.isSome) then
                let (t, pkt) := targetPkt (d.rn (qpReg q 0x18)) (d.rn2 (qpReg q 0x1C) % 2 ^ 48) first len (k.imm.getD 0)
                d.send t 2 { pkt, sender := 0x6004 + p }
              else d
            if k.ackReq || last then say d .ack else d
  | none => d

/-! The lookup service (R202 to R206) -/

/-- The response to a request (R202): its results follow only with OK. -/
def lookupReply (id fs keys : Nat) (st : Status) (step statsTag : Nat) (body : Bytes) : Bytes :=
  leB 2 0xA6E3 ++ leB 1 1 ++ leB 1 0x81 ++ leB 4 id ++ leB 2 fs ++ leB 2 (if st = .ok then keys else 0) ++ leB 1 st.code ++ zeros 1
    ++ leB 6 step ++ leB 6 statsTag ++ zeros 6 ++ (if st = .ok then body else [])

/-- Answer the frame that made a request. -/
def Dev.lookupAnswer (d : Dev) (p : Nat) (way : EthWay) (data : Bytes) : Dev := d.ethSend p way.tag (.udp p way data)

/-- End a request in a slot with a status. -/
def Dev.lookupEnd (d : Dev) (p slot : Nat) (st : Status) (body : Bytes) : Dev :=
  let x := d.eth p
  match tfind x.slots slot with
  | none => d
  | some s =>
    (d.setEth p { x with slots := tdel x.slots slot }).lookupAnswer p s.way
      (lookupReply s.id s.fs (s.keys.length / 8) st s.step s.statsTag body)

/-- A request slot to use: a free one, of those with no result outstanding if there is one. -/
def EthSt.freeSlot (x : EthSt) : Option Nat :=
  match firstWhere (fun i => (tfind x.slots i).isNone && !x.late.contains i) 4096 0 with
  | some i => some i
  | none => firstWhere (fun i => (tfind x.slots i).isNone) 4096 0

/-- The checks of R203, in order. -/
def Dev.lookupCheck (d : Dev) (v6 : Bool) (b : Bytes) : Status :=
  let keys := fld b 10 2
  let fs := fld b 8 2
  let rb := d.rf (fsReg fs 0) 15 0
  if b.length < 32 ∨ fld b 0 2 ≠ 0xA6E2 ∨ fld b 2 1 ≠ 1 ∨ fld b 3 1 ≠ 1 ∨ !zeroAt b 12 20 ∨ b.length ≠ 32 + 8 * keys then .format
  else if 64 ≤ fs ∨ !d.rbit (fsReg fs 0) 31 ∨ keys = 0 ∨ 64 < keys then .descInvalid
  else if 9000 < (if v6 then 48 else 28) + 32 + keys * (8 + rb) then .lenRange
  else .ok

/-- LOOKUP_REQUEST (R203, R204). -/
def Dev.lookupRequest (d : Dev) (p : Nat) : Dev :=
  match d.takeUdp p 9 with
  | some (raw, u, d) =>
    let b := u.data
    let way := d.wayBack p raw u.v6 u.src u.dst u.sport u.dport
    let d := d.bump (ethCnt p 0x24)
    let st := d.lookupCheck u.v6 b
    if st ≠ .ok then d.lookupAnswer p way (lookupReply (fld b 4 4) (fld b 8 2) 0 st d.step 0 [])
    else
      let x := d.eth p
      match x.freeSlot, d.alloc (d.rn (ethReg p 0x2C)) with
      | some i, some a =>
        let fs := fld b 8 2
        let keys := b.drop 32
        let area := a.base + 512 * i
        let d := (d.mwrite area keys).setEth p { x with slots := tput x.slots i (
            { way, id := fld b 4 4, fs, rb := d.rf (fsReg fs 0) 15 0, keys, step := d.step, since := d.now } : LkSlot) }
        let arg := d.rn (fsReg fs 8) / 2 ^ 13 * 2 ^ 13 + p * 2 ^ 12 + i
        let (q, pkt) := targetPkt (d.rn (fsReg fs 4)) (2 ^ 48 - 1) area keys.length arg
        d.send q 2 { pkt, sender := 0x6004 + p }
      | _, _ => d.bump (ethCnt p 0x28)
  | none => d

/-- A lookup task has ended with a status that its request reports (R206). -/
def Dev.lookupFail (d : Dev) (arg : Nat) (st : Status) : Dev :=
  let p := bits arg 12 12
  let i := bits arg 11 0
  if st = .cancelled ∨ st = .homeUnreachable ∨ st = .eccUncorrectable then
    let x := d.eth p
    if (tfind x.slots i).isSome && !x.late.contains i then d.lookupEnd p i st []
    else d.setEth p { x with late := x.late.erase i }
  else d

/-- LOOKUP_RESPONSE (R204): the result operand at the port seat. -/
def Dev.lookupResponse (d : Dev) (p : Nat) : Dev :=
  match d.atWork (1300 + p) 15 with
  | none => d
  | some (q, t) =>
    let i := bits t.arg 11 0
    let x := d.eth p
    let len := ((t.operand 0).map Pkt.length).getD 0
    if t.tag ≠ BitVec.allOnes 48 ∨ bits t.arg 12 12 ≠ p then d.workDone q t.uid .ok []
    else if x.late.contains i then (d.setEth p { x with late := x.late.erase i }).workDone q t.uid .ok []
    else match tfind x.slots i with
      | none => d.workDone q t.uid .ok []
      | some s =>
        let keys := s.keys.length / 8
        if len ≠ keys * (8 + s.rb) then (d.lookupEnd p i .format []).workDone q t.uid .ok []
        else match d.operandData t 0 with
          | (d, none) => (d.lookupEnd p i .eccUncorrectable []).workDone q t.uid .eccUncorrectable []
          | (d, some body) => (d.lookupEnd p i .ok body).workDone q t.uid .ok []

/-- LOOKUP_TIMEOUT (R206). -/
def Dev.lookupTimeout (d : Dev) (p slot : Nat) : Dev :=
  let x := d.eth p
  match tfind x.slots slot with
  | none => d
  | some s =>
    if d.now < s.since + d.rf (ethReg p 0x30) 15 0 * 256 then d
    else
      let d := (d.lookupEnd p slot .late []).bump (ethCnt p 0x2C)
      let x := d.eth p
      d.setEth p { x with late := x.late ++ [slot] }

/-- A pause from a port is in force (R207): a group's, or the last sent on a priority has not run out. -/
def Dev.pausing (d : Dev) (p : Nat) : Bool :=
  d.grps.any (fun e => e.2.pfc && (d.members e.1).any (fun s => d.strPort s == p)) || (d.eth p).pausing.any (fun e => d.now < e.2)

/-- ETH_[n]_STATUS as it reads: a pause from the port, the link, the medium. -/
def Dev.ethStatus (d : Dev) (p : Nat) : Nat := d.rn (ethReg p 4) + 2 * b2n (d.eth p).up + 4 * b2n (d.pausing p) + 8 * (d.eth p).media

end Sys2Proof.Machine
end

