-- ==== Sys2Proof/Machine/Tensor.lean ====
section
/-! DEFINITION. Tensor descriptors: creation checks, addressing, moves (R244 to R263). -/
namespace Sys2Proof.Machine

/-! Elements (R244, R268) -/

def etypeOk (e : Nat) : Bool := (1 ≤ e && e ≤ 8) || e == 0x10
def etypeBytes (e : Nat) : Nat := if e = 0x10 then 1 else typeBytes e
def etypeLo (e : Nat) : Int := if e = 0x10 then -8 else typeLo e
def etypeHi (e : Nat) : Int := if e = 0x10 then 7 else typeHi e
def etypeScales (e : Nat) : Bool := e == 1 || e == 2 || e == 3 || e == 0x10

/-! Addressing (R246, R247) -/

/-- Byte displacement of index i in dimension d. -/
def TDesc.dim (t : TDesc) (d i : Nat) : Int :=
  if t.etype = 0x10 ∧ d = 0 then ((i / 2 : Nat) : Int) else (i : Int) * t.stride.getD d 0

/-- Byte displacement of a parent index from the allocation's BASE. -/
def TDesc.disp (t : TDesc) (i : List Nat) : Int :=
  (List.range 5).foldl (fun a d => a + t.dim d (i.getD d 0)) (t.offset : Int)

/-- Device address of a parent index. -/
def TDesc.addr (t : TDesc) (i : List Nat) : Nat := ((t.base : Int) + t.disp i).toNat

/-- Blocks along a dimension. -/
def TDesc.blocks (t : TDesc) (d : Nat) : Nat := if d = t.axis then ceilDiv (t.size.getD d 1) 32 else t.size.getD d 1

/-- Displacement of the scale word of a parent index. -/
def TDesc.scaleDisp (t : TDesc) (i : List Nat) : Nat :=
  let (n, _) := (List.range 5).foldl (fun (a : Nat × Nat) d =>
    let b := if d = t.axis then i.getD d 0 / 32 else i.getD d 0
    (a.1 + b * a.2, a.2 * t.blocks d)) (0, 1)
  t.scaleOfs + 2 * n

/-- Device address of the scale word of a parent index. -/
def TDesc.scaleAddr (t : TDesc) (i : List Nat) : Nat := t.base + t.scaleDisp i

/-- Bytes of the side tensor. -/
def TDesc.scaleBytes (t : TDesc) : Nat := 2 * (List.range 5).foldl (fun a d => a * t.blocks d) 1

/-- Read the element whose byte lies at an address. -/
def Dev.elemAt (d : Dev) (e a i0 : Nat) : Int :=
  if e = 0x10 then sx 4 (bits (d.mnum a 1) (if i0 % 2 = 0 then 3 else 7) (if i0 % 2 = 0 then 0 else 4))
  else bytesInt e (d.mread a (etypeBytes e))

/-- Write an element. -/
def Dev.setElem (d : Dev) (e a i0 : Nat) (v : Int) : Dev :=
  if e = 0x10 then
    let old := d.mnum a 1
    d.mwrite a (leB 1 (if i0 % 2 = 0 then old / 16 * 16 + tc 4 v else tc 4 v * 16 + old % 16))
  else d.mwrite a (intBytes e v)

/-- Parent index of a slice index. -/
def TDesc.parent (t : TDesc) (k : List Nat) : List Nat := (List.range 5).map (fun d => t.origin.getD d 0 + k.getD d 0)

/-- Every index below the extents, dimension 0 innermost. -/
def indices : List Nat → List (List Nat)
  | [] => [[]]
  | n :: t => (indices t).flatMap (fun r => (List.range n).map (fun i => i :: r))

/-! Boxes -/

/-- Whether an index lies in a box of origins and extents. -/
def inBox (o e i : List Nat) : Bool :=
  (List.range 5).all (fun d => o.getD d 0 ≤ i.getD d 0 && i.getD d 0 < o.getD d 0 + e.getD d 1)

/-- Whether two boxes meet. -/
def boxesMeet (a b : List Nat × List Nat) : Bool :=
  (List.range 5).all (fun d => a.1.getD d 0 < b.1.getD d 0 + b.2.getD d 1 && b.1.getD d 0 < a.1.getD d 0 + a.2.getD d 1)

def TDesc.validBox (t : TDesc) : List Nat × List Nat := (t.origin, t.extent)
def TDesc.paddedBox (t : TDesc) : List Nat × List Nat :=
  ((List.range 5).map (fun d => t.origin.getD d 0 - t.padLo.getD d 0),
   (List.range 5).map (fun d => t.padLo.getD d 0 + t.extent.getD d 1 + t.padHi.getD d 0))
def TDesc.padded (t : TDesc) : Bool := t.padLo.any (· != 0) || t.padHi.any (· != 0)

/-- Lowest and highest byte of a box, from the allocation's BASE (R251). -/
def TDesc.envelope (t : TDesc) (b : List Nat × List Nat) : Int × Int :=
  (List.range 5).foldl (fun (a : Int × Int) d =>
    let x := t.dim d (b.1.getD d 0)
    let y := t.dim d (b.1.getD d 0 + b.2.getD d 1 - 1)
    (a.1 + min x y, a.2 + max x y)) ((t.offset : Int), (t.offset : Int) + etypeBytes t.etype - 1)

/-- Two envelopes meet as device addresses. -/
def envMeet (ab : Nat) (a : Int × Int) (bb : Nat) (b : Int × Int) : Bool :=
  decide ((ab : Int) + a.1 ≤ bb + b.2) && decide ((bb : Int) + b.1 ≤ ab + a.2)

/-- R250. -/
def TDesc.injective (t : TDesc) : Bool :=
  let w := etypeBytes t.etype
  let dims := (List.range 5).filterMap (fun d =>
    if t.size.getD d 1 ≤ 1 then none
    else if t.etype = 0x10 ∧ d = 0 then some (1, t.size.getD 0 1 / 2)
    else some ((t.stride.getD d 0).natAbs, t.size.getD d 1))
  let l := sortBy (fun (a b : Nat × Nat) => a.1 ≤ b.1) dims
  (l.foldl (fun (a : Bool × Nat) x => (a.1 && decide (a.2 ≤ x.1), a.2 + x.1 * (x.2 - 1))) (true, w)).1

/-! Creation (R249) -/

/-- All-ones fields of a job (R245). -/
def jobAllOnes (b : Bytes) : Bool :=
  fld b 8 2 == 0xFFFF || (List.range 5).any (fun d => fld b (48 + 16 * d) 4 == 0xFFFFFFFF)
    || (List.range (fld b 8 2)).any (fun s => (List.range 5).any (fun d =>
        let o := 128 + 64 * s + 12 * d
        fld b (o + 4) 4 == 0xFFFFFFFF || fld b (o + 8) 2 == 0xFFFF || fld b (o + 10) 2 == 0xFFFF))

/-- The slices of a job as descriptors, before any check. -/
def jobSlices (b : Bytes) (job : Nat) (a : Alloc) : List TDesc :=
  let t : TDesc :=
    { job, alloc := a.id, base := a.base, etype := fld b 4 1, rank := fld b 5 1, axis := fld b 7 1
      write := bit (fld b 6 1) 0, scaled := bit (fld b 6 1) 1, offset := fld b 16 8, scaleOfs := fld b 24 8
      pad := sx 64 (fld b 32 8), size := (List.range 5).map (fun d => fld b (48 + 16 * d) 4)
      stride := (List.range 5).map (fun d => sx 64 (fld b (56 + 16 * d) 8))
      origin := [0, 0, 0, 0, 0], extent := (List.range 5).map (fun d => fld b (48 + 16 * d) 4)
      padLo := [0, 0, 0, 0, 0], padHi := [0, 0, 0, 0, 0], others := [] }
  let n := fld b 8 2
  if n = 0 then [t]
  else
    let ts := (List.range n).map (fun s =>
      let f (d o k : Nat) : Nat := fld b (128 + 64 * s + 12 * d + o) k
      { t with
        origin := (List.range 5).map (fun d => f d 0 4), extent := (List.range 5).map (fun d => f d 4 4)
        padLo := (List.range 5).map (fun d => f d 8 2), padHi := (List.range 5).map (fun d => f d 10 2) })
    (List.range n).map (fun s =>
      let me := ts.getD s t
      { me with others := ((List.range n).filter (· != s)).filterMap (fun o =>
          let x := ts.getD o t
          if boxesMeet me.paddedBox x.validBox then some x.validBox else none) })

/-- Check 1 of R249. -/
def jobForm (b : Bytes) (len : Nat) : Bool :=
  let e := fld b 4 1
  let r := fld b 5 1
  let n := fld b 8 2
  let sc := bit (fld b 6 1) 1
  let pad := sx 64 (fld b 32 8)
  etypeOk e && 1 ≤ r && r ≤ 5 && fld b 6 1 < 8 && (if sc then fld b 7 1 < r && etypeScales e && fld b 24 8 % 2 == 0
      else fld b 7 1 == 0 && fld b 24 8 == 0)
    && n ≤ 62 && zeroAt b 10 2 && bits (fld b 12 4) 30 16 == 0 && zeroAt b 40 8
    && (List.range 5).all (fun d => zeroAt b (52 + 16 * d) 4)
    && (List.range n).all (fun s => zeroAt b (128 + 64 * s + 60) 4)
    && decide (etypeLo e ≤ pad) && decide (pad ≤ etypeHi e) && len == 128 + 64 * n

/-- Check 3: sizes and strides, INT4, unused dimensions. -/
def TDesc.shapeOk (t : TDesc) : Bool :=
  (List.range 5).all (fun d =>
    if d < t.rank then 1 ≤ t.size.getD d 0 && t.size.getD d 0 ≤ 2 ^ 31 && decide (-(2 ^ 47) ≤ t.stride.getD d 0)
      && decide (t.stride.getD d 0 < 2 ^ 47)
    else t.size.getD d 0 == 1 && t.stride.getD d 1 == 0 && t.origin.getD d 1 == 0 && t.extent.getD d 0 == 1
      && t.padLo.getD d 1 == 0 && t.padHi.getD d 1 == 0)
  && (t.etype != 0x10 || (t.stride.getD 0 1 == 0 && t.size.getD 0 1 % 2 == 0 && t.origin.getD 0 1 % 2 == 0
      && t.extent.getD 0 1 % 2 == 0 && t.padLo.getD 0 1 % 2 == 0 && t.padHi.getD 0 1 % 2 == 0))

/-- Check 4: the padded box lies in the parent. -/
def TDesc.boxOk (t : TDesc) : Bool :=
  (List.range 5).all (fun d => 1 ≤ t.extent.getD d 0 && t.padLo.getD d 0 ≤ t.origin.getD d 0
    && t.origin.getD d 0 + t.extent.getD d 0 + t.padHi.getD d 0 ≤ t.size.getD d 0) && (t.write || !t.padded)

/-- Check 6: all bytes lie in the allocation. -/
def TDesc.bytesOk (t : TDesc) (size : Nat) : Bool :=
  let e := t.envelope t.paddedBox
  decide (0 ≤ e.1) && decide (e.2 < size) && (!t.scaled || t.scaleOfs + t.scaleBytes ≤ size)

/-- Check 8: overlap with another job (R253). -/
def TDesc.conflicts (n o : TDesc) : Bool :=
  (n.padded && envMeet n.base (n.envelope n.paddedBox) o.base (o.envelope o.validBox))
    || (o.padded && envMeet n.base (n.envelope n.validBox) o.base (o.envelope o.paddedBox))

def Dev.tdFree (d : Dev) (slot : Nat) : Bool := slot < 65536 && (tfind d.tds slot).isNone

/-- First slot of a run of n free slots (R248). -/
def Dev.tdSlot (d : Dev) (req n : Nat) : Option Nat :=
  let run (s : Nat) : Bool := (List.range n).all (fun i => d.tdFree (s + i))
  if bit req 31 then firstWhere run 65536 0 else if run (bits req 15 0) then some (bits req 15 0) else none

/-- What R249 decides on a job: the status and number of the first failing check, or the slices, their first slot and
whether padding overlaps. -/
def Dev.tdCheck (d : Dev) (b : Bytes) (len : Nat) (a : Alloc) : Except (Status × Nat) (List TDesc × Nat × Bool) :=
  let ts := jobSlices b d.tdJob a
  let pairs := (List.range ts.length).flatMap (fun i => (List.range i).map (fun j => (i, j)))
  if !jobForm b len then .error (.descInvalid, 1)
  else if bit (fld b 6 1) 0 && bit a.flags 1 then .error (.descInvalid, 2)
  else if !ts.all (·.shapeOk) then .error (.descInvalid, 3)
  else if !ts.all (·.boxOk) then .error (.descInvalid, 4)
  else if bit (fld b 6 1) 0 && (!ts.all (·.injective) || pairs.any (fun p => match ts[p.1]?, ts[p.2]? with
      | some x, some y => boxesMeet x.validBox y.validBox | _, _ => false)) then .error (.descInvalid, 5)
  else if !ts.all (·.bytesOk a.size) then .error (.outOfAlloc, 6)
  else match d.tdSlot (fld b 12 4) ts.length with
    | none => .error (.descInvalid, 7)
    | some s =>
      let hit := d.tds.any (fun o => o.2.write && o.2.dying.isNone && ts.any (fun n => n.conflicts o.2))
      if hit && !bit (fld b 6 1) 2 then .error (.padOverlap, 8) else .ok (ts, s, hit)

/-- A job is refused (R249, R267). -/
def Dev.tdRefused (d : Dev) (st : Status) (order : Nat) : Dev :=
  ((d.bump (MEM + 0x31008)).wn (MEM + 0x3100C) (st.code * 256 + order))

/-- TDESC_CREATE after R151 checks 1 to 7: status and RESULT, and the state after. -/
def Dev.tdCreate (d : Dev) (b : Bytes) (len : Nat) (a : Alloc) : Dev × Status × Nat :=
  match d.tdCheck b len a with
  | .error (st, n) => (d.tdRefused st n, st, 0)
  | .ok (ts, s, hit) =>
    let d := (List.range ts.length).foldl (fun (d : Dev) i => match ts[i]? with
      | some t => { d with tds := tput d.tds (s + i) t }
      | none => d) d
    let d := ({ d with tdJob := d.tdJob + 1 }.bump (MEM + 0x31004)).wn (MEM + 0x31000) d.tds.length
    (d, if hit then .padOverlap else .ok, tget 0 d.tdGen s * 65536 + s)

/-- Destroy the descriptor in a slot: its generation increments (R248). -/
def Dev.tdDestroy (d : Dev) (s : Nat) : Dev :=
  let d := { d with tds := tdel d.tds s, tdGen := tmod 0 d.tdGen s (fun g => (g + 1) % 256) }
  d.wn (MEM + 0x31000) d.tds.length

/-- The descriptor a handle names (R248, R254), for a task: a dying one only for tasks selected before its mark. -/
def Dev.tdesc (d : Dev) (h : Nat) (user : Nat × Nat) : Option TDesc :=
  match tfind d.tds (h % 65536) with
  | some t => if h / 65536 = tget 0 d.tdGen (h % 65536) ∧ (t.dying.isNone ∨ t.users.contains user) then some t else none
  | none => none

/-- Whether a handle is that of a live descriptor (R151 check 5). -/
def Dev.tdNamed (d : Dev) (h : Nat) : Bool :=
  match tfind d.tds (h % 65536) with
  | some t => h / 65536 == tget 0 d.tdGen (h % 65536) && t.dying.isNone
  | none => false

/-! Runs and padding (R252, R261, R263) -/

/-- Misaligned runs among elements listed with dimension 0 innermost, all their bytes moved by a shift (R276). -/
def TDesc.halfRuns (t : TDesc) (l : List (List Nat)) (shift : Int := 0) : Nat :=
  let joins := t.etype == 0x10 || (t.stride.getD 0 0).natAbs == etypeBytes t.etype
  let close (n lo : Nat) : Nat := if lo % 64 = 0 then n else n + 1
  let r := l.foldl (fun (a : Option (List Nat × Nat) × Nat) i =>
    let x := ((t.base : Int) + shift + t.disp i).toNat
    match a.1 with
    | none => (some (i, x), a.2)
    | some (p, lo) =>
      let next := joins && i.drop 1 == p.drop 1 && (i.getD 0 0 == p.getD 0 0 || i.getD 0 0 == p.getD 0 0 + 1)
      if next then (some (i, Nat.min lo x), a.2) else (some (i, x), close a.2 lo)) (none, 0)
  match r.1 with | some (_, lo) => close r.2 lo | none => r.2

/-- Padding elements that a slice writes (R252). -/
def TDesc.padList (t : TDesc) : List (List Nat) :=
  let b := t.paddedBox
  ((indices b.2).map (fun k => (List.range 5).map (fun d => b.1.getD d 0 + k.getD d 0))).filter (fun i =>
    !inBox t.origin t.extent i && !t.others.any (fun o => inBox o.1 o.2 i))

/-- Write a slice's padding. -/
def Dev.fillPad (d : Dev) (t : TDesc) : Dev :=
  let l := t.padList
  let d := l.foldl (fun d i => d.setElem t.etype (t.addr i) (i.getD 0 0) t.pad) d
  let n := t.halfRuns l
  if n = 0 then d else d.bump (MEM + 0x31014) n

/-! Moves (R256 to R261) -/

structure MoveRec where
  src : Nat
  dst : Nat
  perm : List Nat
  permOk : Bool
  fill : Bool
  win : List Int
  deriving DecidableEq, Repr, Inhabited

def moveRec (b : Bytes) : MoveRec :=
  let p := fld b 8 2
  { src := fld b 0 4, dst := fld b 4 4, perm := (List.range 5).map (fun j => bits p (3 * j + 2) (3 * j)), permOk := !bit p 15
    fill := bit (fld b 10 2) 0, win := (List.range 5).map (fun d => sx 32 (fld b (12 + 4 * d) 4)) }

/-- Source slice index of a destination slice index, and whether a dimension was clamped (R257, R258). -/
def MoveRec.source (m : MoveRec) (s : TDesc) (k : List Nat) : List Nat × Bool :=
  let at1 (dim : Nat) : Nat × Bool :=
    let j := m.perm.findIdx (· == dim)
    let v := m.win.getD dim 0 + (k.getD j 0 : Nat)
    let c := clampI 0 ((s.extent.getD dim 1 : Int) - 1) v
    (c.toNat, c != v)
  let l := (List.range 5).map at1
  (l.map (·.1), l.any (·.2))

/-- R259 and R260. -/
def moveOk (m : MoveRec) (s t : TDesc) (mflags : Nat) : Bool :=
  let r := s.rank
  let a := s.axis
  let j := m.perm.findIdx (· == a)
  let ext := t.extent.getD j 1
  let win := m.win.getD a 0
  t.write && mflags < 2 && m.permOk && s.rank == t.rank && s.etype == t.etype && s.scaled == t.scaled
    && (List.range 5).all (fun j => if j < r then m.perm.getD j 9 < r else m.perm.getD j 9 == j)
    && decide m.perm.Nodup
    && (s.etype != 0x10 || (m.perm.getD 0 9 == 0 && m.win.getD 0 0 % 2 == 0))
    && (!s.scaled || (t.axis == j && ((s.origin.getD a 0 : Int) + win) % 32 == 0
        && decide (0 ≤ win) && decide (win + ext ≤ s.extent.getD a 1)
        && t.origin.getD j 0 % 32 == 0 && (ext % 32 == 0 || t.origin.getD j 0 + ext == t.size.getD j 0)))

/-- Addresses that a record reads: each element's first byte and size, and its scale words. -/
def moveReads (m : MoveRec) (s t : TDesc) : List (Nat × Nat) :=
  (indices t.extent).flatMap (fun k =>
    let i := s.parent (m.source s k).1
    (s.addr i, etypeBytes s.etype) :: (if s.scaled then [(s.scaleAddr i, 2)] else []))

/-- Source rows of a record, source dimension 0 innermost: one list of parent indices for each. -/
def moveRows (m : MoveRec) (s t : TDesc) : List (List (List Nat)) :=
  let n := (List.range 5).map (fun dim => t.extent.getD (m.perm.findIdx (· == dim)) 1)
  (indices (n.drop 1)).map (fun r => (List.range (n.getD 0 1)).map (fun i =>
    let k := (List.range 5).map (fun j => (i :: r).getD (m.perm.getD j 0) 0)
    s.parent (m.source s k).1))

/-- Run one record: every value is read before any is written. -/
def Dev.runMove (d : Dev) (m : MoveRec) (s t : TDesc) : Dev :=
  let ks := indices t.extent
  let vals := ks.map (fun k =>
    let (i, c) := m.source s k
    let p := s.parent i
    (t.parent k, d.elemAt s.etype (s.addr p) (p.getD 0 0), if s.scaled then d.mread (s.scaleAddr p) 2 else [], c))
  let d := vals.foldl (fun d v =>
    let d := d.setElem t.etype (t.addr v.1) (v.1.getD 0 0) v.2.1
    if t.scaled then d.mwrite (t.scaleAddr v.1) v.2.2.1 else d) d
  let d := if m.fill then d.fillPad t else d
  let clamps := (vals.filter (fun v => v.2.2.2)).length
  let half := ((moveRows m s t).map s.halfRuns).foldl (· + ·) 0 + t.halfRuns (ks.map t.parent)
  let d := if clamps = 0 then d else d.bump (MEM + 0x31010) clamps
  if half = 0 then d else d.bump (MEM + 0x31014) half

/-- Records in order; a poisoned source ends the task. -/
def runMoves : List (MoveRec × TDesc × TDesc) → Dev → Dev × Bool
  | [], d => (d, true)
  | (m, s, t) :: r, d =>
    let (d, bad) := d.touchAll (moveReads m s t)
    if bad then (d, false) else runMoves r (d.runMove m s t)

/-- MOVE_TASK (R256): a MATRIX or ENCODE seat's task with ARG bit 31. -/
def Dev.moveTask (d : Dev) (seat : Nat) : Dev :=
  match d.running seat with
  | some (q, t) =>
    if t.phase ≠ .seated_ ∨ !(t.role = 9 ∨ t.role = 11) ∨ !bit t.arg 31 then d
    else
      let len := ((t.operand 0).map Pkt.length).getD 0
      if t.arg ≠ 2 ^ 31 ∨ len = 0 ∨ len % 32 ≠ 0 ∨ 256 < len / 32 then d.workFail q t.uid .descInvalid
      else
        let (d, data) := d.operandData t 0
        match data with
        | none => d.workFail q t.uid .eccUncorrectable
        | some raw =>
          let recs := (chunk 32 raw).map (fun b =>
            let m := moveRec b
            match d.tdesc m.src (q, t.uid), d.tdesc m.dst (q, t.uid) with
            | some s, some x => if moveOk m s x (fld b 10 2) then some (m, s, x) else none
            | _, _ => none)
          if recs.any (·.isNone) then d.workFail q t.uid .descInvalid
          else match runMoves (recs.filterMap id) d with
            | (d, true) => d.workOpen q t.uid
            | (d, false) => d.workFail q t.uid .eccUncorrectable
  | none => d

end Sys2Proof.Machine
end

