-- ==== Sys2Proof/Machine/Matrix.lean ====
section
/-! DEFINITION. The matrix array: MATRIX tasks, accumulation, requantised stores, banks (R264, R265, R272 to R286). -/
namespace Sys2Proof.Machine

def Dev.mxSt (d : Dev) (t : Nat) : MxSt := tget {} d.mx t
def Dev.setMx (d : Dev) (t : Nat) (x : MxSt) : Dev := { d with mx := tput d.mx t x }

/-! Operands (R273 to R276) -/

/-- An operand: its descriptor, where parent element 0 lies, and how far its side tensor is moved (R276). -/
structure MxOperand where
  desc : TDesc
  shift : Int
  deriving DecidableEq, Repr, Inhabited

/-- Device address of element k of a row. -/
def MxOperand.addr (o : MxOperand) (k row : Nat) : Nat :=
  ((o.desc.addr (o.desc.parent [k, row]) : Int) + o.shift).toNat

def MxOperand.scaleAddr (o : MxOperand) (k row : Nat) : Nat :=
  ((o.desc.scaleAddr (o.desc.parent [k, row]) : Int) + o.shift).toNat

/-- The shifted envelopes of the slice, which are those of its padded box, and of its side tensor lie within the allocation (R251,
R276). -/
def MxOperand.inside (o : MxOperand) (size : Nat) : Bool :=
  let e := o.desc.envelope o.desc.paddedBox
  decide (0 ≤ e.1 + o.shift) && decide (e.2 + o.shift < size)
    && (!o.desc.scaled || (decide (0 ≤ (o.desc.scaleOfs : Int) + o.shift)
      && decide ((o.desc.scaleOfs : Int) + o.desc.scaleBytes + o.shift ≤ size)))

/-- Ranges that the rows of a tile read: elements and scale words. -/
def MxOperand.reads (o : MxOperand) (row n k : Nat) : List (Nat × Nat) :=
  (List.range n).flatMap (fun r =>
    (List.range k).map (fun i => (o.addr i (row + r), 1))
      ++ (if o.desc.scaled then (List.range (ceilDiv k 32)).map (fun b => (o.scaleAddr (32 * b) (row + r), 2)) else []))

/-- Misaligned runs of the rows read (R263). -/
def MxOperand.half (o : MxOperand) (row n k : Nat) : Nat :=
  ((List.range n).map (fun r => o.desc.halfRuns ((List.range k).map (fun i => o.desc.parent [i, row + r])) o.shift)).foldl (· + ·) 0

/-- q of an element, and multiplier and exponent of its block (R269, R278). -/
def MxOperand.q (d : Dev) (o : MxOperand) (k row : Nat) : Int :=
  d.elemAt o.desc.etype (o.addr k row) ((o.desc.parent [k, row]).getD 0 0)
def MxOperand.scl (d : Dev) (o : MxOperand) (b row : Nat) : Nat × Int :=
  if o.desc.scaled then let w := d.mnum (o.scaleAddr (32 * b) row) 2; (sclM w, sclE w) else (1, 0)

/-! The accumulation path (R277 to R279) -/

def accMax : Int := 2 ^ 47 - 1
def accMin : Int := -(2 ^ 47)

/-- Add a term with the clamp of 48 bits, counting clamps. -/
def accAdd (a : Int × Nat) (t : Int) : Int × Nat :=
  let v := clampI accMin accMax (a.1 + t)
  (v, if v = a.1 + t then a.2 else a.2 + 1)

/-- v × 2^s, rounded half to even when s is negative (R270, R278). -/
def shiftR (v : Int) (s : Int) : Int := if 0 ≤ s then v * 2 ^ s.toNat else rne v (-s).toNat

/-- The term of a block partial (R278). -/
def mxTerm (p : Int) (a b : Nat × Int) (f : Int) : Int :=
  if a.1 = 0 ∨ b.1 = 0 then 0 else shiftR (p * (a.1 * b.1 : Nat)) (a.2 + b.2 - f)

/-- One output element: the accumulator and the additions that clamped. -/
def mxElement (d : Dev) (a b : MxOperand) (k : Nat) (f : Int) (row col : Nat) : Int × Nat :=
  (List.range (ceilDiv k 32)).foldl (fun acc blk =>
    let p := (List.range (min 32 (k - 32 * blk))).foldl (fun (x : Int) i =>
      x + a.q d (32 * blk + i) row * b.q d (32 * blk + i) col) 0
    accAdd acc (mxTerm p (a.scl d blk row) (b.scl d blk col) f)) (0, 0)

/-! Checks at dispatch (R264, R275) -/

/-- R264 for a store into a slice. -/
def storeOk (t : TDesc) (rowDim colDim : Nat) (org : List Nat) (rows cols : Nat) : Bool :=
  let len (d : Nat) : Nat := if d = rowDim then rows else if d = colDim then cols else 1
  let o := t.origin.getD t.axis 0 + org.getD t.axis 0
  rowDim != colDim && rowDim < t.rank && colDim < t.rank
    && (List.range 5).all (fun d => org.getD d 0 + len d ≤ t.extent.getD d 1)
    && !(t.etype == 0x10 && rowDim == 0)
    && (!t.scaled || (o % 32 == 0 && (len t.axis % 32 == 0 || o + len t.axis == t.size.getD t.axis 0)))

/-- An operand of an entry, if R275 accepts it; `slot` is A_SLOT or B_SLOT. -/
def Dev.mxOperand (d : Dev) (q : Nat) (t : Task) (h slot n k : Nat) : Option MxOperand :=
  match d.tdesc h (q, t.uid) with
  | none => none
  | some x =>
    let ok := x.rank == 2 && (x.etype == 1 || x.etype == 0x10) && x.extent.getD 0 0 == k && n ≤ x.extent.getD 1 0
      && (!x.scaled || (x.axis == 0 && x.origin.getD 0 0 % 32 == 0))
    if !ok then none
    else if slot = 0xFF then some { desc := x, shift := 0 }
    else (t.operand slot).map (fun p => { desc := x, shift := (Pkt.payload p : Int) - (x.base + x.offset : Nat) })

/-- Everything a matrix task's ARG and entry name, once R275 has accepted it: the two operands, K, F and the bank that its
sums will fill. -/
structure MxJob where
  a : MxOperand
  b : MxOperand
  k : Nat
  bank : MxBank
  rowA : Nat
  rowB : Nat

/-- R275 (all of it; no read has been made). -/
def Dev.mxJob (d : Dev) (q : Nat) (t : Task) : Option MxJob :=
  let p := t.params
  let i := bits t.arg 7 0
  let ti := bits t.arg 18 8
  let tj := bits t.arg 29 19
  let e := slice p (16 + 32 * i) 32
  let m := fld e 16 4
  let n := fld e 20 4
  let k := fld e 24 4
  if bit t.arg 30 ∨ fld p 0 2 ≤ i ∨ m ≤ 64 * ti ∨ n ≤ 64 * tj then none
  else
    let rec_ := slice p (16 + 32 * fld p 0 2 + 32 * fld e 12 2) 32
    let rows := min 64 (m - 64 * ti)
    let cols := min 64 (n - 64 * tj)
    let rd := bits (fld rec_ 4 1) 2 0
    let cd := bits (fld rec_ 5 1) 2 0
    let org := (List.range 5).map (fun x =>
      fld rec_ (8 + 4 * x) 4 + (if x = rd then 64 * ti else if x = cd then 64 * tj else 0))
    match d.mxOperand q t (fld e 0 4) (fld e 8 1) m k, d.mxOperand q t (fld e 4 4) (fld e 9 1) n k, d.tdesc (fld rec_ 0 4) (q, t.uid) with
    | some a, some b, some dst =>
      if etypeScales dst.etype && dst.write && storeOk dst rd cd org rows cols then
        some { a, b, k, rowA := 64 * ti, rowB := 64 * tj
               bank := { q, uid := t.uid, acc := [], dst, rowDim := rd, colDim := cd, org, rows, cols, fill := bit (fld rec_ 6 2) 0
                         f := sx 8 (fld e 10 1), outExp := sx 8 (fld e 11 1) } }
      else none
    | _, _, _ => none

/-- The MATRIX task that the seat is to accumulate next: the first on it that has no bank yet. -/
def Dev.mxNext (d : Dev) (s : Nat) : Option (Nat × Task) :=
  let on := (d.seat s).slots.filterMap (fun e => (d.task e.1 e.2).map (fun t => (e.1, t)))
  on.find? (fun e => e.2.phase == .seated_ && !(d.mxSt s).banks.any (fun b => b.q == e.1 && b.uid == e.2.uid))

/-- MATRIX_TASK (R274 to R280, R285): the next task is checked, accumulates into the bank the last one did not use, and
its store begins when the accumulation ends. A third accumulation waits for the first store's end. -/
def Dev.matrixTask (d : Dev) (s : Nat) : Dev :=
  let x := d.mxSt s
  match d.mxNext s with
  | none => d
  | some (q, t) =>
    if t.role ≠ 9 ∨ bit t.arg 31 ∨ 2 ≤ x.banks.length then d
    else match d.mxJob q t with
      | none => (d.bump (tilReg s 0x54)).workFail q t.uid .descInvalid
      | some j =>
        let room (o : MxOperand) : Bool := match d.alloc o.desc.alloc with | some a => o.inside a.size | none => false
        if !(room j.a && room j.b) then d.workFail q t.uid .outOfAlloc
        else
          let (d, bad) := d.touchAll (j.a.reads j.rowA j.bank.rows j.k ++ j.b.reads j.rowB j.bank.cols j.k)
          let n := j.a.half j.rowA j.bank.rows j.k + j.b.half j.rowB j.bank.cols j.k
          let d := if n = 0 then d else d.bump (MEM + 0x31014) n
          if bad then d.workFail q t.uid .eccUncorrectable
          else
            let es := (List.range j.bank.rows).flatMap (fun r => (List.range j.bank.cols).map (fun c =>
              mxElement d j.a j.b j.k j.bank.f (j.rowA + r) (j.rowB + c)))
            let d := d.bump (tilReg s 0x44) ((es.map (·.2)).foldl (· + ·) 0)
            d.setMx s { bank := !x.bank, banks := x.banks ++ [{ j.bank with acc := es.map (·.1) }] }

/-! The store (R264, R281 to R283) -/

/-- Destination slice index of accumulator element (r, c). -/
def MxBank.at_ (b : MxBank) (r c : Nat) : List Nat :=
  (List.range 5).map (fun d => b.org.getD d 0 + (if d = b.rowDim then r else if d = b.colDim then c else 0))

/-- Elements with their parent indices, row by row. -/
def MxBank.elems (b : MxBank) : List (List Nat × Int) :=
  (List.range b.rows).flatMap (fun r => (List.range b.cols).map (fun c =>
    (b.dst.parent (b.at_ r c), b.acc.getD (r * b.cols + c) 0)))

/-- The destination blocks of a store with their elements, in order of their first element (R281). -/
def MxBank.blocks (b : MxBank) : List (List (List Nat × Int)) :=
  let key (i : List Nat) : Nat := b.dst.scaleDisp i
  (dedup (b.elems.map (fun e => key e.1))).map (fun k => b.elems.filter (fun e => key e.1 == k))

/-- Store one block: its scale word and q values. -/
def Dev.storeBlock (d : Dev) (s : Nat) (b : MxBank) (es : List (List Nat × Int)) : Dev :=
  let (w, qs, n) := quantBlock (qMax b.dst.etype) (es.map (fun e => some (Frac.pow2 e.2 b.f)))
  let d := if sclM w = 0 then d.bump (tilReg s 0x4C) else d
  let d := if n = 0 then d else d.bump (tilReg s 0x48) n
  let d := match es with | e :: _ => d.mwrite (b.dst.scaleAddr e.1) (leB 2 w) | [] => d
  (es.zip qs).foldl (fun d x => d.setElem b.dst.etype (b.dst.addr x.1.1) (x.1.1.getD 0 0) x.2) d

/-- Store a bank. -/
def Dev.storeBank (d : Dev) (s : Nat) (b : MxBank) : Dev :=
  let d :=
    if b.dst.scaled then b.blocks.foldl (fun d es => d.storeBlock s b es) d
    else b.elems.foldl (fun d e =>
      let v := shiftR e.2 (b.f - b.outExp)
      let c := clampI (etypeLo b.dst.etype) (etypeHi b.dst.etype) v
      let d := if c = v then d else d.bump (tilReg s 0x48)
      d.setElem b.dst.etype (b.dst.addr e.1) (e.1.getD 0 0) c) d
  let order := if b.rowDim = 0 then (List.range b.cols).flatMap (fun c => (List.range b.rows).map (fun r => b.dst.parent (b.at_ r c)))
    else b.elems.map (·.1)
  let n := b.dst.halfRuns order
  let d := if n = 0 then d else d.bump (MEM + 0x31014) n
  if b.fill then d.fillPad b.dst else d

/-- MATRIX_STORE_END (R285): the oldest store ends; its task has done its work and its bank is free. -/
def Dev.matrixStoreEnd (d : Dev) (s : Nat) : Dev :=
  let x := d.mxSt s
  match x.banks with
  | [] => d
  | b :: rest =>
    let d := d.setMx s { x with banks := rest }
    match d.task b.q b.uid with
    | some t => if t.phase = .seated_ then ((d.storeBank s b).bump (tilReg s 0x50)).workOpen b.q b.uid else d
    | none => d

/-- TIL_MX_STATUS (R286). -/
def Dev.mxStatus (d : Dev) (s : Nat) : Nat :=
  let x := d.mxSt s
  b2n ((d.mxNext s).any (fun e => e.2.role == 9 && !bit e.2.arg 31)) + at_ (b2n x.bank) 1 + at_ (b2n !x.banks.isEmpty) 2

/-- Handles that a task names (R254): an entry's operands and destination, or its move records'. -/
def Dev.taskHandles (d : Dev) (t : Task) : List Nat :=
  if (t.role = 9 ∨ t.role = 11) ∧ bit t.arg 31 then
    match t.operand 0 with
    | some p => (chunk 32 (d.mread (Pkt.payload p) (Pkt.length p))).flatMap (fun r => [fld r 0 4, fld r 4 4])
    | none => []
  else if t.role = 9 then
    let e := slice t.params (16 + 32 * bits t.arg 7 0) 32
    [fld e 0 4, fld e 4 4, fld t.params (16 + 32 * fld t.params 0 2 + 32 * fld e 12 2) 4]
  else if t.role = 10 then [fld t.params (16 + 48 * bits t.arg 7 0 + 8) 4]
  else []

/-- Tasks that have been selected and have not completed. -/
def Dev.selected (d : Dev) : List (Nat × Task) :=
  d.quads.flatMap (fun e => (e.2.tasks.filter (fun t => !t.phase.early && t.phase != .finished)).map (fun t => (e.1, t)))

/-- TDESC_DESTROY of a live handle (R254): it is marked dying, with the tasks that may still use it. -/
def Dev.tdMark (d : Dev) (h : Nat) (o : Origin) : Dev :=
  let users := (d.selected.filter (fun e => (d.taskHandles e.2).contains h)).map (fun e => (e.1, e.2.uid))
  match tfind d.tds (h % 65536) with
  | some t => { d with tds := tput d.tds (h % 65536) { t with dying := some o, users } }
  | none => d

/-- TDESC_REMOVE (R254): a dying descriptor goes once no task that uses it is left, and its completion is posted. -/
def Dev.tdRemove (d : Dev) (slot : Nat) : Dev :=
  match tfind d.tds slot with
  | some t => match t.dying with
    | some o =>
      if t.users.any (fun u => d.selected.any (fun e => e.1 == u.1 && e.2.uid == u.2)) then d
      else (d.tdDestroy slot).complete o none .ok 0 0
    | none => d
  | none => d

/-- At a full switch, after its step 4: descriptors whose allocation is not kept are destroyed (R255). A dying one's
completion is posted. -/
def Dev.tdSwitch (d : Dev) (kept : List Alloc) : Dev :=
  (d.tds.filter (fun e => !kept.any (fun a => a.id == e.2.alloc))).foldl (fun d e =>
    let d := d.tdDestroy e.1
    match e.2.dying with | some o => d.complete o none .ok 0 0 | none => d) d

end Sys2Proof.Machine
end

