-- ==== Sys2Proof/Machine/Embed.lean ====
section
/-! DEFINITION. Embedding tables: rows and their homes, gathers and pooling, replicas, updates (R287 to R311). -/
namespace Sys2Proof.Machine

/-! Tables (R287 to R290) -/

/-- A table entry. -/
structure EmbTable where
  id : Nat
  etype : Nat
  sharded : Bool
  hot : Bool
  dim : Nat
  group : Nat
  lead : Nat
  lag : Nat
  tc : Nat
  rows : Nat
  slots : Nat
  rowAlloc : Nat
  dirLog : Nat
  updExp : Int
  stations : List Nat
  hotAlloc : Nat
  hotThr : Nat
  hotCap : Nat
  updAlloc : Nat
  updCap : Nat
  counterAlloc : Nat
  counterIdx : Nat
  updQuad : Nat
  deriving DecidableEq, Repr, Inhabited

/-- Table entry i of a GATHER or SCATTER parameter block. -/
def embTable (p : Bytes) (i : Nat) : EmbTable :=
  let e := slice p (32 + 64 * i) 64
  { id := fld e 0 2, etype := fld e 2 1, sharded := bit (fld e 3 1) 0, hot := bit (fld e 3 1) 1, dim := fld e 4 2
    group := fld e 6 1, lead := bits (fld e 7 1) 2 0, lag := bits (fld e 7 1) 5 4, tc := bits (fld e 7 1) 7 6
    rows := fld e 8 8, slots := fld e 16 8, rowAlloc := fld e 24 4, dirLog := fld e 28 1, updExp := sx 8 (fld e 29 1)
    stations := (List.range (fld e 30 2)).map (fun k => fld p (fld e 32 4 + 2 * k) 2)
    hotAlloc := fld e 36 4, hotThr := fld e 40 4, hotCap := fld e 44 4, updAlloc := fld e 48 4, updCap := fld e 52 4
    counterAlloc := fld e 56 4, counterIdx := fld e 60 2, updQuad := bits (fld e 62 1) 2 0 }

def embTables (p : Bytes) : List EmbTable := (List.range (fld p 0 2)).map (embTable p)

/-- The tables of the station, by the seats that name them. -/
def Dev.tables (d : Dev) : List EmbTable :=
  (d.plt.seats.filter (fun e => e.role == 12 || e.role == 13)).flatMap (fun e => embTables e.params)
def Dev.table (d : Dev) (id : Nat) : Option EmbTable := d.tables.find? (fun t => t.id == id)

/-- Bytes of a row's q, padded row stride, scales of a row, and where scales and directory start in ROW_ALLOC (R288). -/
def EmbTable.qBytes (t : EmbTable) : Nat := if t.etype = 0x10 then t.dim / 2 else t.dim * typeBytes t.etype
def EmbTable.stride (t : EmbTable) : Nat := upTo t.qBytes 64
def EmbTable.nb (t : EmbTable) : Nat := ceilDiv t.dim 32
def EmbTable.scaleOfs (t : EmbTable) : Nat := upTo (t.slots * t.stride) 64
def EmbTable.dirOfs (t : EmbTable) : Nat := upTo (t.scaleOfs + t.slots * 2 * t.nb) 64
/-- Bytes of the layout in ROW_ALLOC. -/
def EmbTable.bytes (t : EmbTable) : Nat :=
  if t.sharded then t.dirOfs + 2 ^ t.dirLog * 16 else t.scaleOfs + t.slots * 2 * t.nb

/-- The key and the hash of a row (R289). -/
def EmbTable.key (t : EmbTable) (r : Nat) : Nat := t.id * 2 ^ 40 + r
def EmbTable.hash (t : EmbTable) (r : Nat) : Nat := (mix64 (BitVec.ofNat 64 (t.key r))).toNat

/-- The home of a row: none where it is this station. -/
def Dev.rowHome (d : Dev) (t : EmbTable) (r : Nat) : Option Nat :=
  if !t.sharded then none
  else
    let h := t.stations.getD (mulHi (t.hash r) t.stations.length) 0
    if h = d.station then none else some h

/-- Probe a directory of entries of 16 bytes for a row (R290). -/
def dirLook (d : Dev) (base mask r : Nat) : Nat → Nat → Option Nat
  | 0, _ => none
  | n + 1, i =>
    let k := d.mnum (base + 16 * (i % (mask + 1))) 8
    if k = r then some (d.mnum (base + 16 * (i % (mask + 1)) + 8) 8)
    else if k = 2 ^ 64 - 1 then none else dirLook d base mask r n (i + 1)

/-- The slot of a row homed here. An entry whose slot is not below SLOTS holds no row (DESIGN CHOICE, log entry 100). -/
def Dev.rowSlot (d : Dev) (t : EmbTable) (r : Nat) : Option Nat :=
  if !t.sharded then some r
  else match d.alloc t.rowAlloc with
    | some a =>
      (dirLook d (a.base + t.dirOfs) (2 ^ t.dirLog - 1) r (2 ^ t.dirLog) (t.hash r % 2 ^ t.dirLog)).filter (fun s => s < t.slots)
    | none => none

/-- Addresses of a slot's q bytes and scales. -/
def Dev.rowAddr (d : Dev) (t : EmbTable) (slot : Nat) : Nat × Nat :=
  let base := ((d.alloc t.rowAlloc).map (·.base)).getD 0
  (base + slot * t.stride, base + t.scaleOfs + slot * 2 * t.nb)

/-- q elements and scale words of a row's bytes. -/
def EmbTable.decode (t : EmbTable) (b : Bytes) : List Int × List Nat :=
  ((List.range t.dim).map (fun i =>
      if t.etype = 0x10 then sx 4 (bits (fld b (i / 2) 1) (if i % 2 = 0 then 3 else 7) (if i % 2 = 0 then 0 else 4))
      else bytesInt t.etype (slice b (i * typeBytes t.etype) (typeBytes t.etype))),
   (List.range t.nb).map (fun k => fld b (t.qBytes + 2 * k) 2))

/-- What became of a row that a window fetches. -/
inductive RowGot where
  | absent (late : Bool)
  | poisoned | unreachable
  | got (bytes : Bytes) (late : Bool)
  deriving DecidableEq, Repr, Inhabited

/-- Add to a counter of the table's record, saturating (R310). -/
def Dev.tableCount (d : Dev) (t : EmbTable) (ofs width n : Nat) : Dev :=
  match d.alloc t.counterAlloc with
  | some a =>
    let x := a.base + 64 * t.counterIdx + ofs
    if n = 0 then d else d.mwrite x (leB width (Nat.min (d.mnum x width + n) (2 ^ (8 * width) - 1)))
  | none => d

/-- Registers of a gather engine. -/
def gth (c off : Nat) : Nat := cluReg c (0x400 + off)
def Dev.gthBump (d : Dev) (c off n : Nat) : Dev := if n = 0 then d else d.bump (gth c off) n

/-- One of a station's engines of some roles, chosen by a row's hash (R306, R383). -/
def Dev.engineFor (d : Dev) (roles : List Nat) (h : Nat) : Option Nat :=
  let l := (List.range 72).filter (fun c => roles.contains (d.seat (1152 + c)).role)
  if l.isEmpty then none else l[mulHi h l.length]?

/-! Hot rows (R299) -/

/-- Where the hot list of a parity starts in HOT_ALLOC. -/
def EmbTable.hotList (t : EmbTable) (par : Nat) : Nat := 16 * t.slots + par * (64 + 8 * t.hotCap)

/-- A tag's access counts are open while the step is its read step: they are sealed at the bell that ends it (R300). -/
def Dev.hotOpen (d : Dev) (t : EmbTable) (tag : Nat) : Bool := tag == d.step + t.lead

/-- A fetch served: its multiplicity goes to the row's counter of the tag, and a row that passes HOT_THR to the hot list. -/
def Dev.hotAdd (d : Dev) (t : EmbTable) (slot r tag mult : Nat) : Dev :=
  match d.alloc t.hotAlloc with
  | none => d
  | some a =>
    if !t.hot || !d.hotOpen t tag then d
    else
      let par := tag % 2
      let x := a.base + 16 * slot + 8 * par
      let w := d.mnum x 8
      let old := if w / 2 ^ 48 = tag % 65536 then w % 2 ^ 48 else 0
      let new := Nat.min (old + mult) (2 ^ 48 - 1)
      let d := d.mwrite x (leB 8 (tag % 65536 * 2 ^ 48 + new))
      if old ≤ t.hotThr ∧ t.hotThr < new then
        let l := a.base + t.hotList par
        let n := if d.mnum (l + 8) 8 = tag then d.mnum l 4 else 0
        if n < t.hotCap then ((d.mwrite l (leB 4 (n + 1))).mwrite (l + 8) (leB 8 tag)).mwrite (l + 64 + 8 * n) (leB 8 r)
        else d.tableCount t 56 4 1
      else d

/-! Replicas (R300 to R302) -/

def Dev.replArea (d : Dev) (c : Nat) : Option Alloc :=
  match d.plt.allocs.find? (fun a => a.kind == 3 && a.unit == clusterId c) with
  | some a => if a.size < 131072 then none else some a
  | none => none

/-- Directory entry of a key on a board: its address, once the directory has been written. -/
def replLook (d : Dev) (base k : Nat) : Nat → Nat → Option Nat
  | 0, _ => none
  | n + 1, i =>
    let x := base + 16 * (i % 4096)
    let v := d.mnum x 8
    if v = k then some x else if v = 2 ^ 64 - 1 then none else replLook d base k n (i + 1)

def Dev.replEntry (d : Dev) (c : Nat) (t : EmbTable) (r : Nat) : Option Nat :=
  match d.replArea c with
  | some a => if d.emb.boards.contains c then replLook d a.base (t.key r) 4096 (t.hash r / 2 ^ 52) else none
  | none => none

/-- A valid replica's bytes. -/
def Dev.replica (d : Dev) (c : Nat) (t : EmbTable) (r : Nat) : Option Bytes :=
  match d.replEntry c t r, d.replArea c with
  | some x, some a =>
    if d.rbit (gth c 0) 0 && bit (d.mnum (x + 12) 4) 0 then some (d.mread (a.base + d.mnum (x + 8) 4) (t.qBytes + 2 * t.nb)) else none
  | _, _ => none

/-- Entries of a board's directory: address and key, the free ones left out. -/
def Dev.replList (d : Dev) (c : Nat) : List (Nat × Nat) :=
  match d.replArea c with
  | some a =>
    if d.emb.boards.contains c then
      ((List.range 4096).map (fun i => (a.base + 16 * i, d.mnum (a.base + 16 * i) 8))).filter (fun e => e.2 != 2 ^ 64 - 1)
    else []
  | none => []

/-- Replica rows held VALID (GTH_REPL_ROWS). -/
def Dev.replRows (d : Dev) (c : Nat) : Nat := ((d.replList c).filter (fun e => bit (d.mnum (e.1 + 12) 4) 0)).length

/-- Mark a directory entry invalid. -/
def Dev.replOff (d : Dev) (x : Nat) : Dev := let f := d.mnum (x + 12) 4; if bit f 0 then d.mwrite (x + 12) (leB 4 (f - 1)) else d

/-- Clearing REPL_EN invalidates every replica on the board at once (R311). -/
def Dev.replDisable (d : Dev) (c : Nat) : Dev := (d.replList c).foldl (fun d e => d.replOff e.1) d

/-- A changed row's replicas on the station are marked invalid (R302). -/
def Dev.replDrop (d : Dev) (t : EmbTable) (r : Nat) : Dev :=
  (List.range 72).foldl (fun d c => match d.replEntry c t r with | some x => d.replOff x | none => d) d

/-- Write a board's directory and data anew from a list of keys, bytes and flags, in order. -/
def Dev.replWrite (d : Dev) (base : Nat) (l : List (Nat × Bytes × Nat)) : Dev :=
  let d := d.mwrite base (List.replicate 65536 0xFF#8)
  let (d, _) := l.foldl (fun (a : Dev × Nat) e =>
    let h := (mix64 (BitVec.ofNat 64 e.1)).toNat / 2 ^ 52
    match firstWhere (fun i => a.1.mnum (base + 16 * (i % 4096)) 8 == 2 ^ 64 - 1) 4096 h with
    | some i =>
      ((a.1.mwrite (base + 16 * (i % 4096)) (leB 8 e.1 ++ leB 4 a.2 ++ leB 4 e.2.2)).mwrite (base + a.2) e.2.1, a.2 + e.2.1.length)
    | none => a) (d, 65536)
  d

/-- Rows that fit, in order: at most n entries and a number of bytes. -/
def replFit : Nat → Nat → List (Nat × Bytes × Nat) → List (Nat × Bytes × Nat)
  | _, _, [] => []
  | n, room, e :: t => if n = 0 ∨ room < e.2.1.length then [] else e :: replFit (n - 1) (room - e.2.1.length) t

/-- The rows that a refresh of a group selects at a step (R300). -/
def Dev.hotRows (d : Dev) (g : Nat) : List (Nat × Nat) :=
  let ts := d.tables.filter (fun t => t.group == g && t.hot)
  let ts := (dedup (ts.map (·.id))).filterMap (fun i => ts.find? (fun t => t.id == i))
  let rows := ts.flatMap (fun t =>
    match d.alloc t.hotAlloc with
    | none => []
    | some a =>
      let tag := d.step + t.lead - 1
      let l := a.base + t.hotList (tag % 2)
      if d.mnum (l + 8) 8 ≠ tag then []
      else (List.range (Nat.min (d.mnum l 4) t.hotCap)).filterMap (fun i =>
        let r := d.mnum (l + 64 + 8 * i) 8
        if (d.rowHome t r).isSome then none
        else (d.rowSlot t r).map (fun s => (d.mnum (a.base + 16 * s + 8 * (tag % 2)) 8 % 2 ^ 48, t.id, r))))
  (sortBy (fun (x y : Nat × Nat × Nat) =>
    y.1 < x.1 || (x.1 == y.1 && (x.2.1 < y.2.1 || (x.2.1 == y.2.1 && x.2.2 ≤ y.2.2)))) rows).map (·.2)

/-- The group of a directory entry's table. -/
def Dev.keyGroup (d : Dev) (k : Nat) : Nat := ((d.table (k / 2 ^ 40)).map (·.group)).getD 256

/-- Boards that a refresh fills: their gather engine is not IDLE and takes replicas (R300). -/
def Dev.refreshes (d : Dev) (c : Nat) : Bool := (d.seat (1152 + c)).role != 0 && d.rbit (gth c 0) 0

/-- A REFRESH_REPLICAS entry fires (R300): the group's replicas go, and its rows are chosen. -/
def Dev.refreshFire (d : Dev) (g : Nat) : Dev :=
  let d := ((List.range 72).filter d.refreshes).foldl (fun d c =>
    (d.replList c).foldl (fun d e => if d.keyGroup e.2 = g then d.replOff e.1 else d) d) d
  { d with emb := { d.emb with refresh := tput d.emb.refresh g (d.hotRows g) } }

/-- REPLICA_REFRESH_END (R300, R301): the chosen rows are copied to every board that takes replicas, while they fit. It
waits while an application to one of the group's tables is due. -/
def Dev.refreshEnd (d : Dev) (g : Nat) : Dev :=
  match tfind d.emb.refresh g with
  | none => d
  | some rows =>
    if d.emb.due.any (fun u => (d.table u.table).any (fun t => t.group == g)) then d
    else
      let d := { d with emb := { d.emb with refresh := tdel d.emb.refresh g } }
      let new := rows.filterMap (fun r => match d.table r.1 with
        | some t => match d.rowSlot t r.2 with
          | some s =>
            let (q, sc) := d.rowAddr t s
            if d.poisoned q t.qBytes || d.poisoned sc (2 * t.nb) then none
            else some (t.key r.2, d.mread q t.qBytes ++ d.mread sc (2 * t.nb), 1 + 2 * (g % 2))
          | none => none
        | none => none)
      (List.range 72).foldl (fun d c =>
        match d.replArea c with
        | some a =>
          if !d.refreshes c then d
          else
            let keep := (d.replList c).filterMap (fun e =>
              if d.keyGroup e.2 = g ∨ !bit (d.mnum (e.1 + 12) 4) 0 then none
              else (d.table (e.2 / 2 ^ 40)).map (fun t => (e.2, d.mread (a.base + d.mnum (e.1 + 8) 4) (t.qBytes + 2 * t.nb), d.mnum (e.1 + 12) 4)))
            let d := d.replWrite a.base (replFit 4096 (a.size - 65536) (keep ++ new))
            { d with emb := { d.emb with boards := if d.emb.boards.contains c then d.emb.boards else c :: d.emb.boards } }
        | none => d) d

/-! Gathers (R291 to R298) -/

structure Pool where
  table : EmbTable
  mode : Nat
  idx : Nat
  wgt : Nat
  out : Nat
  emptyOut : Nat
  outType : Nat
  f : Int
  wScale : Nat
  deriving DecidableEq, Repr, Inhabited

def embPools (p : Bytes) : List Pool :=
  (List.range (fld p 2 2)).map (fun i =>
    let e := slice p (32 + 64 * fld p 0 2 + 32 * i) 32
    { table := embTable p (fld e 0 1), mode := fld e 1 1, idx := fld e 2 2, wgt := fld e 4 2, out := fld e 6 2
      emptyOut := fld e 8 2, outType := fld e 10 1, f := sx 8 (fld e 11 1), wScale := fld e 12 2 })

/-- A position of a bag: its sample, its row if the index is in range, its weight element. -/
structure BagPos where
  sample : Nat
  row : Option Nat
  wgt : Int
  deriving DecidableEq, Repr, Inhabited

/-- The positions of a pooling entry in bag order, or none when the columns do not serve it (FORMAT). -/
def bagPositions (b : DBatch) (p : Pool) : Option (List BagPos) :=
  match b.col p.idx with
  | none => none
  | some c =>
    let w? := if p.wgt = 0xFFFF then none else b.col p.wgt
    let okW := p.wgt == 0xFFFF || match w? with
      | some w => (w.type == 1 || w.type == 2) && w.depth == c.depth
          && (List.range b.samples).all (fun j => (w.cell b.samples j).vals.length == (c.cell b.samples j).vals.length)
      | none => false
    if (c.type = 3 ∨ c.type = 4) ∧ c.depth ≤ 1 ∧ (c.depth = 1 ∨ c.flat b.samples) ∧ okW then
      some ((List.range b.samples).flatMap (fun j =>
        let ws := match w? with | some w => (w.cell b.samples j).vals.map (fun (v : Option Bytes) => (v.map (bytesInt w.type)).getD 0) | none => []
        let vs := (c.cell b.samples j).vals
        (List.range vs.length).map (fun i =>
          let row := (vs.getD i none).bind (fun x =>
            let v := bytesInt c.type x
            if 0 ≤ v ∧ v < p.table.rows then some v.toNat else none)
          { sample := j, row, wgt := ws.getD i 0 })))
    else none

/-- Distinct rows of a window with their multiplicities, in order of first appearance; positions of invalid samples ask for
nothing. -/
def windowRows (valid : List Bool) (w : List BagPos) : List (Nat × Nat) :=
  let rs := w.filterMap (fun x => if valid.getD x.sample false then x.row else none)
  (dedup rs).map (fun r => (r, (rs.filter (· == r)).length))

/-- What a gather has to ask peers for: pool, window, table, row, multiplicity, home. -/
def Dev.asks (d : Dev) (c : Nat) (valid : List Bool) (ps : List (Nat × Pool × List BagPos)) : List (Nat × Nat × EmbTable × Nat × Nat × Nat) :=
  ps.flatMap (fun p =>
    let ws := chunk 4096 p.2.2
    (List.range ws.length).flatMap (fun wi => (windowRows valid (ws.getD wi [])).filterMap (fun r =>
      match d.rowHome p.2.1.table r.1 with
      | some h => if (d.replica c p.2.1.table r.1).isSome then none else some (p.1, wi, p.2.1.table, r.1, r.2, h)
      | none => none)))

/-- Send the read requests of a gather; false when a home cannot be reached (R298, R383, R384). -/
def sendAsks (c tag : Nat) : List (Nat × Nat × EmbTable × Nat × Nat × Nat) → Dev → List GthAsk → Dev × List GthAsk × Bool
  | [], d, l => (d, l, true)
  | (p, w, t, r, m, h) :: rest, d, l =>
    let req := leB 2 t.id ++ leB 6 d.step ++ leB 8 r ++ leB 4 m ++ leB 2 (tag % 65536) ++ zeros 10
    match d.sendWaiting h 1 t.tc req (.read c) with
    | (some (id, d), _) => sendAsks c tag rest d (l ++ [{ msg := id, table := t.id, pool := p, window := w, row := r }])
    | (none, d) => (d, l, false)

/-- Fetch a row here: from the replica area, or from DRAM (R296). -/
def Dev.fetchRow (d : Dev) (c : Nat) (t : EmbTable) (r mult tag : Nat) (lookup : Bool) : Dev × RowGot :=
  let count (d : Dev) (s : Nat) : Dev := (if lookup then d else d.hotAdd t s r tag mult).tableCount t 16 8 1
  match d.replica c t r, d.rowSlot t r with
  | some b, some s => (count (d.gthBump c 0x14 1) s, .got b false)
  | _, none => (d.tableCount t 60 4 1, .absent false)
  | none, some s =>
    let (q, sc) := d.rowAddr t s
    let (d, bad) := d.touchAll [(q, t.qBytes), (sc, 2 * t.nb)]
    let d := count (d.gthBump c 8 1) s
    (d, if bad then .poisoned else .got (d.mread q t.qBytes ++ d.mread sc (2 * t.nb)) false)

/-- What a peer answered. -/
def GthAsk.got (a : GthAsk) : RowGot :=
  match a.answer with
  | some (.ok, late, b) => .got b late
  | some (.descInvalid, late, _) => .absent late
  | some (.eccUncorrectable, _, _) => .poisoned
  | _ => .unreachable

/-- Fetch every window of a pooling entry: the rows got, and the positions that a fetch of their window served again. -/
def Dev.fetchPool (d : Dev) (c tag : Nat) (lookup : Bool) (asks : List GthAsk) (valid : List Bool) (pi : Nat) (p : Pool)
    (ps : List BagPos) : Dev × List (Nat × RowGot) :=
  let ws := chunk 4096 ps
  (List.range ws.length).foldl (fun (a : Dev × List (Nat × RowGot)) wi =>
    (windowRows valid (ws.getD wi [])).foldl (fun (a : Dev × List (Nat × RowGot)) r =>
      let (d, g) := match asks.find? (fun x => x.pool == pi && x.window == wi && x.row == r.1) with
        | some x => (a.1, x.got)
        | none => a.1.fetchRow c p.table r.1 r.2 tag lookup
      let d := match g with | .got _ _ => d.gthBump c 0x10 (r.2 - 1) | _ => d
      (d, a.2 ++ [(r.1, g)])) a) (d, [])

/-- The bytes of a row that was got. -/
def gotBytes (l : List (Nat × RowGot)) (r : Nat) : Option Bytes :=
  l.findSome? (fun x => if x.1 = r then (match x.2 with | .got b _ => some b | _ => none) else none)

/-- Pool one bag (R292, R293): per element the accumulator, and the additions that clamped. -/
def poolBag (p : Pool) (rows : List (Nat × Int × (List Int × List Nat))) : List (Int × Nat) :=
  let wm : Nat × Int := match p.mode with
    | 0 => (sclM p.wScale, sclE p.wScale) | 1 => (1, 0) | _ => (1, -20)
  (List.range p.table.dim).map (fun e =>
    rows.foldl (fun a r =>
      let s := r.2.2.2.getD (e / 32) 0
      let t : Int := if sclM s = 0 ∨ wm.1 = 0 then 0
        else shiftR (r.2.1 * r.2.2.1.getD e 0 * (sclM s * wm.1 : Nat)) (sclE s + wm.2 - p.f)
      accAdd a t) (0, 0))

/-- Weight of a position (R292); n is the bag's count of valid positions. -/
def Pool.weight (p : Pool) (n : Nat) (w : Int) : Int :=
  match p.mode with | 0 => w | 1 => 1 | _ => rneDiv (2 ^ 20) (Nat.max 1 n)

/-- DROPPED and EMPTY_BAGS of a pooling entry (R291, R294): positions whose index is out of range or whose row its home lacks,
and bags with no other. -/
def poolCounts (b : DBatch) (ps : List BagPos) (rows : List (Nat × RowGot)) : Nat × Nat :=
  let lacks (r : Nat) : Bool := rows.any (fun x => x.1 == r && match x.2 with | .absent _ => true | _ => false)
  let good (x : BagPos) : Bool := match x.row with | some r => !lacks r | none => false
  let live := ps.filter (fun x => b.valid.getD x.sample false)
  ((live.filter (fun x => !good x)).length,
   ((List.range b.samples).filter (fun j => b.valid.getD j false && !live.any (fun x => x.sample == j && good x))).length)

/-- Output columns of a pooling entry: the columns, GTH_ACC_SAT, GTH_OUT_SAT. -/
def poolColumns (b : DBatch) (p : Pool) (ps : List BagPos) (rows : List (Nat × RowGot)) : List BCol × Nat × Nat :=
  let wd := 32 * p.table.nb
  let live := ps.filter (fun x => b.valid.getD x.sample false)
  let good (x : BagPos) : Bool := match x.row with | some r => (gotBytes rows r).isSome | none => false
  let bags := (List.range b.samples).map (fun j => live.filter (fun x => x.sample == j && good x))
  let pooled := bags.map (fun bag =>
    let n := bag.length
    let rs := (dedup (bag.filterMap (·.row))).map (fun r =>
      (r, ((bag.filter (fun x => x.row == some r)).map (fun x => p.weight n x.wgt)).foldl (· + ·) 0,
        p.table.decode ((gotBytes rows r).getD [])))
    poolBag p rs)
  let vals := pooled.flatMap (fun v => (List.range wd).map (fun e =>
    some (Frac.pow2 ((v.getD e (0, 0)).1) p.f)))
  let (ss, qs, sat) := quantBlocks (qMax p.outType) vals
  let acc := (pooled.map (fun v => (v.map (·.2)).foldl (· + ·) 0)).foldl (· + ·) 0
  let empty := (bags.zip b.valid).map (fun x => x.2 && x.1.isEmpty)
  let cols := [mkCol p.out p.outType 0 (typeBytes p.outType) [] (qs.map (fun q => some (intBytes p.outType q))) ss] ++
    (if p.emptyOut = 0xFFFF then [] else [mkCol p.emptyOut 9 0 1 [] (empty.map (fun e => some [if e then 1#8 else 0#8])) []])
  (cols, acc, sat)

/-- The step whose embedding state a gather reads by: the step it was selected in, or its request's admission step (R205). -/
def Dev.gatherStep (d : Dev) (t : Task) : Nat :=
  if t.tag = BitVec.allOnes 48 then
    match tfind (tget {} d.eths (b2n (bit t.arg 12)) : EthSt).slots (bits t.arg 11 0) with | some s => s.step | none => t.selStep
  else t.selStep

/-- Count DROPPED and EMPTY_BAGS of a gather that ends, whatever its status, given what was got of each pooling entry (R210,
R310). -/
def Dev.gatherCounts (d : Dev) (b : DBatch) (ps : List (Nat × Pool × List BagPos)) (got : List (List (Nat × RowGot))) : Dev :=
  ps.zipIdx.foldl (fun d x =>
    let n := poolCounts b x.1.2.2 (got.getD x.2 [])
    (d.tableCount x.1.2.1.table 0 8 n.1).tableCount x.1.2.1.table 8 8 n.2) d

/-- A gather ends without a result. -/
def Dev.gatherFail (d : Dev) (c q uid : Nat) (st : Status) : Dev :=
  ({ d with emb := { d.emb with gathers := tdel d.emb.gathers c } }).workFail q uid st

/-- The end of a gather whose rows have all been got (R293 to R297). -/
def Dev.gatherEnd (d0 d : Dev) (c q : Nat) (t : Task) (b : DBatch) (ps : List (Nat × Pool × List BagPos))
    (asks : List GthAsk) : Dev :=
  let lookup := t.tag == BitVec.allOnes 48
  let (d, got) := ps.foldl (fun (a : Dev × List (List (Nat × RowGot))) p =>
    let (d, l) := a.1.fetchPool c t.tag.toNat lookup asks b.valid p.1 p.2.1 p.2.2
    (d, a.2 ++ [l])) (d, [])
  let all := got.flatten.map (·.2)
  if all.contains .unreachable then (d.gatherCounts b ps got).gatherFail c q t.uid .homeUnreachable
  else if all.contains .poisoned then (d.gatherCounts b ps got).gatherFail c q t.uid .eccUncorrectable
  else
    let outs := (ps.zip got).map (fun x => poolColumns b x.1.2.1 x.1.2.2 x.2)
    let count (d : Dev) : Dev :=
      ((d.gthBump c 0x18 ((outs.map (fun o => o.2.1)).foldl (· + ·) 0)).gthBump c 0x1C
        ((outs.map (fun o => o.2.2)).foldl (· + ·) 0)).gatherCounts b ps got
    let out := { b with cols := b.cols ++ outs.flatMap (fun (o : List BCol × Nat × Nat) => o.1) }
    match d.place (fld t.params 4 4) (fld t.params 8 4) [out.bytes] with
    | .wait => d0
    | .full => (count d).gatherFail c q t.uid .outputFull
    | .done rs d =>
      let d := count d
      let lead := ((ps.head?).map (fun p => p.2.1.table.lead)).getD 0
      let late := all.any (fun g => match g with | .got _ l => l | .absent l => l | _ => false)
        || (!lookup && decide ((t.tag.toNat : Int) - lead < t.selStep))
      let d := { d with emb := { d.emb with gathers := tdel d.emb.gathers c } }
      if late then (d.gthBump c 0x2C 1).workDone q t.uid .late rs else d.workDone q t.uid .ok rs

/-- GATHER_TASK (R295 to R298, R205). A gather that needs rows of peers sends its requests and goes on when they have
been answered; one that meets an application that is due, begun after it was selected, reads before it; one selected
after the bell waits for it. -/
def Dev.gatherTask (d : Dev) (c : Nat) : Dev :=
  match d.atWork (1152 + c) 12 with
  | none => d
  | some (q, t) =>
    let pools := embPools t.params
    if d.emb.due.any (fun u => u.atStep ≤ d.gatherStep t && pools.any (fun p => p.table.id == u.table)) then d
    else
      let st := tfind d.emb.gathers c
      let mine := match st with | some g => g.q == q && g.uid == t.uid | none => false
      if mine && (match st with | some g => g.asks.any (fun a => a.answer.isNone) | none => false) then d
      else
        let d0 := d
        let (d, data) := d.operandData t 0
        match data with
        | none => d.gatherFail c q t.uid .eccUncorrectable
        | some raw =>
          match d.taskBatch t raw (d.readBatch raw) with
          | none => d.gatherFail c q t.uid .format
          | some b =>
            let ids := b.cols.map (·.idx) ++ pools.flatMap (fun p => if p.emptyOut = 0xFFFF then [p.out] else [p.out, p.emptyOut])
            let ps := pools.map (bagPositions b)
            if ids ≠ dedup ids ∨ ps.any (·.isNone) then d.gatherFail c q t.uid .format
            else
              let ps := (List.range pools.length).map (fun i => (i, pools.getD i default, (ps.getD i none).getD []))
              if mine then Dev.gatherEnd d0 d c q t b ps ((st.map (·.asks)).getD [])
              else
                let want := d.asks c b.valid ps
                let (d, asks, ok) := sendAsks c t.tag.toNat want d []
                let d := d.gthBump c 0xC asks.length
                if !ok then (d.gatherCounts b ps []).gatherFail c q t.uid .homeUnreachable
                else if asks.isEmpty then Dev.gatherEnd d0 d c q t b ps []
                else { d with emb := { d.emb with gathers := tput d.emb.gathers c { q, uid := t.uid, asks } } }

/-- An answer to a gather's read request (R298, R383, R384). -/
def Dev.readAnswer (d : Dev) (c msg : Nat) (st : Status) (late : Bool) (row : Bytes) : Dev :=
  match tfind d.emb.gathers c with
  | some g =>
    let g := { g with asks := g.asks.map (fun a => if a.msg = msg then { a with answer := some (st, late, row) } else a) }
    { d with emb := { d.emb with gathers := tput d.emb.gathers c g } }
  | none => d

/-- READ_RSP: the oldest delivered response. -/
def Dev.readRsp (d : Dev) : Dev :=
  match d.takeMsg 2 with
  | none => d
  | some (m, d) =>
    match d.endWait m.id with
    | some (.read c, d) => d.readAnswer c m.id (Status.ofCode (fld m.data 0 1)) (bit (fld m.data 1 1) 0) (slice m.data 16 (fld m.data 4 4))
    | some (_, _) => d
    | none => d

/-- The home serves one read request (R298, R299, R383). It carries 16 bits of its task's tag; the only tag whose counts are open
is the requester's step plus GATHER_LEAD, so the read is counted where those bits are that tag's (log entry 100). -/
def Dev.serveRead (d : Dev) (m : Msg) : Dev :=
  let id := fld m.data 0 2
  let sq := fld m.data 2 6
  let r := fld m.data 8 8
  let mult := fld m.data 16 4
  let late := sq < d.step
  let reply (d : Dev) (st : Status) (row : Bytes) : Dev :=
    match d.sendMessage m.src 2 m.tc m.id false (leB 1 st.code ++ leB 1 (b2n late) ++ zeros 2 ++ leB 4 row.length ++ leB 8 r ++ row) with
    | (some d, _) => d
    | (none, d) => d
  match d.table id with
  | none => reply d .descInvalid []
  | some t =>
    let d := d.tableCount t 24 8 1
    let slot := if r < t.rows ∧ (d.rowHome t r).isNone then d.rowSlot t r else none
    match slot with
    | none => reply (d.tableCount t 60 4 1) .descInvalid []
    | some s =>
      let (q, sc) := d.rowAddr t s
      let (d, bad) := d.touchAll [(q, t.qBytes), (sc, 2 * t.nb)]
      let d := match d.engineFor [12] (t.hash r) with | some c => d.gthBump c 8 1 | none => d
      let d := (if fld m.data 20 2 = (sq + t.lead) % 65536 ∧ !late then d.hotAdd t s r (sq + t.lead) mult else d).tableCount t 16 8 1
      if bad then reply d .eccUncorrectable [] else reply d .ok (d.mread q t.qBytes ++ d.mread sc (2 * t.nb))

/-- READ_REQ: the first delivered request that the home's step and its applications let it serve (R298). -/
def Dev.readReq (d : Dev) : Dev :=
  let ready (m : Msg) : Bool := m.cls == 1 && fld m.data 2 6 ≤ d.step && !d.emb.due.any (fun u => u.table == fld m.data 0 2)
  match d.fab.inbox.find? ready with
  | none => d
  | some m => ({ d with fab := { d.fab with inbox := d.fab.inbox.erase m } }).serveRead m

/-! Updates (R303 to R308) -/

def updEntry (t : EmbTable) : Nat := 16 + 8 * t.dim

/-- Address of an update buffer set. -/
def Dev.updSet (d : Dev) (t : EmbTable) (set : Nat) : Nat := ((d.alloc t.updAlloc).map (·.base)).getD 0 + set * t.updCap * updEntry t

/-- Make every entry of a set free. -/
def Dev.updFree (d : Dev) (t : EmbTable) (set : Nat) : Dev :=
  (List.range t.updCap).foldl (fun d i => d.mwrite (d.updSet t set + i * updEntry t) (leB 8 (2 ^ 64 - 1))) d

/-- Entry of a row in a set, or a free one, by probing. -/
def updFind (d : Dev) (base cap sz r : Nat) : Nat → Nat → Option (Nat × Bool)
  | 0, _ => none
  | n + 1, i =>
    let x := base + i % Nat.max 1 cap * sz
    let k := d.mnum x 8
    if k = r then some (x, true) else if k = 2 ^ 64 - 1 then some (x, false) else updFind d base cap sz r n (i + 1)

/-- A sum of terms: row, term count, sums, and how many records it is made of. -/
structure UpdSum where
  row : Nat
  count : Nat
  sums : List Int
  recs : Nat := 1
  deriving DecidableEq, Repr, Inhabited

/-- Add a sum tagged u to the buffers of the home (R305). -/
def Dev.updAdd (d : Dev) (t : EmbTable) (u : Nat) (s : UpdSum) : Dev × Status :=
  match d.rowSlot t s.row with
  | none => ((d.tableCount t 0 8 s.recs).tableCount t 60 4 1, .ok)
  | some _ =>
    let late := decide ((u : Int) ≤ (d.step : Int) - t.lag)
    let tag := if late then d.step + 1 - t.lag else u
    let set := tag % 4
    let d := if late then d.tableCount t 40 8 1 else d
    let d := if d.emb.sets.contains (t.id * 4 + set) then d
      else { (d.updFree t set) with emb := { d.emb with sets := (t.id * 4 + set) :: d.emb.sets } }
    match updFind d (d.updSet t set) t.updCap (updEntry t) s.row t.updCap (t.hash s.row % Nat.max 1 t.updCap) with
    | none => (d.tableCount t 48 8 1, .outputFull)
    | some (x, old) =>
      let n := if old then d.mnum (x + 8) 8 else 0
      let sums := (List.range t.dim).flatMap (fun e =>
        leB 8 (tc 64 ((if old then sx 64 (d.mnum (x + 16 + 8 * e) 8) else 0) + s.sums.getD e 0)))
      ((d.mwrite x (leB 8 s.row ++ leB 8 (Nat.min (n + s.count) (2 ^ 32 - 1)) ++ sums)).tableCount t 32 8 s.count,
        if late then .late else .ok)

/-- Records of an update block: row, term count, terms, and terms that clamped; `none` for an invalid index. -/
def updRecords (t : EmbTable) (etype : Nat) (fwd : Bool) (n sz : Nat) (b : Bytes) : List (Option (UpdSum × Nat)) :=
  (List.range n).map (fun i =>
    let r := slice b (32 + i * sz) sz
    let row := sx 64 (fld r 0 8)
    if row < 0 ∨ t.rows ≤ row then none
    else if fwd then
      some ({ row := row.toNat, count := fld r 8 8, sums := (List.range t.dim).map (fun e => sx 64 (fld r (16 + 8 * e) 8)) }, 0)
    else
      let w := typeBytes etype
      let ts := (List.range t.dim).map (fun e =>
        let s := fld r (8 + 2 * (e / 32)) 2
        let v : Int := if sclM s = 0 then 0
          else shiftR (bytesInt etype (slice r (8 + 2 * t.nb + e * w) w) * (sclM s : Nat)) (sclE s - t.updExp)
        let c := clampI (-(2 ^ 31 - 1)) (2 ^ 31 - 1) v
        (c, c != v))
      some ({ row := row.toNat, count := 1, sums := ts.map (·.1) }, (ts.filter (·.2)).length))

/-- Coalesce a window of records: one sum per distinct row, in order of first appearance (R304). -/
def coalesce (dim : Nat) (w : List UpdSum) : List UpdSum :=
  (dedup (w.map (·.row))).map (fun r =>
    let l := w.filter (fun s => s.row == r)
    { row := r, count := (l.map (·.count)).foldl (· + ·) 0, recs := (l.map (·.recs)).foldl (· + ·) 0
      sums := (List.range dim).map (fun e => (l.map (fun s => s.sums.getD e 0)).foldl (· + ·) 0) })

/-- Worse of two statuses of a scatter: a failure stays, then LATE. -/
def worse (a b : Status) : Status := if a = .ok ∨ (a = .late ∧ b ≠ .ok) then b else a

/-- Deal with the sums of a task in order: add here, forward elsewhere, under the ETYPE of the task's own block. -/
def updDeal (c q : Nat) (t : Task) (tb : EmbTable) (etype : Nat) : List UpdSum → Dev → List Nat → Status → Dev × List Nat × Status
  | [], d, ids, st => (d, ids, st)
  | s :: rest, d, ids, st =>
    match d.rowHome tb s.row with
    | none => let (d, x) := d.updAdd tb t.tag.toNat s; updDeal c q t tb etype rest d ids (worse st x)
    | some h =>
      let body := leB 2 tb.id ++ leB 1 etype ++ leB 1 1 ++ leB 4 1 ++ zeros 24 ++ leB 8 s.row ++ leB 8 s.count
        ++ s.sums.flatMap (fun x => leB 8 (tc 64 x))
      let pkt := mkPkt tb.updQuad 13 0 0xFFFF t.lane 1 0 t.pri t.tag.toNat 0 body.length t.arg
      match d.sendWaiting h 0 tb.tc (pkt ++ body) (.update q t.uid) with
      | (some (id, d), _) => updDeal c q t tb etype rest (d.gthBump c 0x28 1) (ids ++ [id]) st
      | (none, d) => (d.tableCount tb 48 8 (((s :: rest).map (·.recs)).foldl (· + ·) 0), ids, worse st .homeUnreachable)

/-- SCATTER_TASK (R303 to R305). It waits while an application of its table is due, and for the ACKs of the sums it
has forwarded. -/
def Dev.scatterTask (d : Dev) (c : Nat) : Dev :=
  match d.atWork (1152 + c) 13 with
  | none => d
  | some (q, t) =>
    if !t.acks.isEmpty then d
    else
      let (d1, data) := d.operandData t 0
      match data with
      | none => d1.workFail q t.uid .eccUncorrectable
      | some raw =>
        match (embTables t.params).find? (fun x => x.id == fld raw 0 2) with
        | none => d1.workFail q t.uid .format
        | some tb =>
          let fwd := bit (fld raw 3 1) 0
          let etype := fld raw 2 1
          let n := fld raw 4 4
          let sz := if fwd then 16 + 8 * tb.dim else upTo (8 + 2 * tb.nb + tb.dim * typeBytes etype) 8
          if raw.length ≠ 32 + n * sz ∨ raw.length < 32 ∨ 2 ≤ fld raw 3 1 ∨ !zeroAt raw 8 24
              ∨ (etype ≠ 1 ∧ etype ≠ 2) then d1.workFail q t.uid .format
          else if tb.updAlloc = 0 then (d1.tableCount tb 0 8 n).workDone q t.uid .ok []
          else if d.emb.due.any (fun u => u.table == tb.id) ∨ (d.step : Int) - tb.lag + 4 < t.tag.toNat then d
          else
            let recs := updRecords tb etype fwd n sz raw
            let good := recs.filterMap id
            let d := d1.tableCount tb 0 8 (n - good.length)
            let d := (d.gthBump c 0x20 ((good.map (·.2)).foldl (· + ·) 0)).gthBump c 0x24 (if fwd then 0 else good.length)
            let sums := (chunk 4096 recs).flatMap (fun w => coalesce tb.dim ((w.filterMap id).map (·.1)))
            let (d, ids, st) := updDeal c q t tb etype sums d [] .ok
            let d := if st = .late then d.gthBump c 0x2C 1 else d
            if ids.isEmpty then d.workDone q t.uid st []
            else d.updTask q t.uid (fun t => { t with acks := ids, status := if t.status = .ok then st else t.status })

/-- A forwarded sum has been acknowledged, refused or lost (R304, R384): with the last one the task has done its work. -/
def Dev.updAnswer (d : Dev) (q uid msg : Nat) (st : Status) : Dev :=
  let d := d.updTask q uid (fun t =>
    { t with acks := t.acks.filter (· != msg), status := if st ≠ .ok ∧ (t.status = .ok ∨ t.status = .late) then st else t.status })
  match d.task q uid with
  | some t => if t.acks.isEmpty ∧ t.phase = .seated_ ∧ t.role = 13 then d.workDone q uid .ok [] else d
  | none => d

/-- Requantise one block of a row with its sums (R306): the new scale word, q values, clamps. -/
def applyBlock (t : EmbTable) (w : Nat) (qs sums : List Int) : Nat × List Int × Nat :=
  let v := (qs.zip sums).map (fun x =>
    let a := Frac.pow2 (x.1 * (sclM w : Nat)) (sclE w)
    let b := Frac.pow2 x.2 t.updExp
    some (⟨a.num * b.den + b.num * a.den, a.den * b.den⟩ : Frac))
  quantBlock (qMax t.etype) v

/-- The q bytes of a row. -/
def EmbTable.encode (t : EmbTable) (qs : List Int) : Bytes :=
  if t.etype = 0x10 then (chunk 2 qs).map (fun p => BitVec.ofNat 8 (Machine.tc 4 (p.getD 0 0) + 16 * Machine.tc 4 (p.getD 1 0)))
  else qs.flatMap (intBytes t.etype)

/-- Apply one entry of a set to its row (R306). -/
def Dev.applyEntry (d : Dev) (t : EmbTable) (x : Nat) : Dev :=
  let r := d.mnum x 8
  let n := d.mnum (x + 8) 8
  match d.rowSlot t r with
  | none => d.tableCount t 48 8 n
  | some slot =>
    let (q, sc) := d.rowAddr t slot
    let (d, bad) := d.touchAll [(q, t.qBytes), (sc, 2 * t.nb)]
    if bad ∨ 2 ^ 32 - 1 ≤ n then d.tableCount t 48 8 n
    else
      let (qs, ss) := t.decode (d.mread q t.qBytes ++ d.mread sc (2 * t.nb))
      let sums := (List.range t.dim).map (fun e => sx 64 (d.mnum (x + 16 + 8 * e) 8))
      let blocks := (List.range t.nb).map (fun k =>
        let qk := (qs.drop (32 * k)).take 32
        let sk := (sums.drop (32 * k)).take 32
        if sk.all (· == 0) then (ss.getD k 0, qk, 0, false)
        else let (w, nq, c) := applyBlock t (ss.getD k 0) qk sk; (w, nq, c, true))
      let changed := blocks.any (fun b => b.2.2.2)
      if !changed then d
      else
        let d := (d.mwrite q (t.encode (blocks.flatMap (fun b => b.2.1)))).mwrite sc (blocks.flatMap (fun b => leB 2 b.1))
        let clamps := (blocks.map (fun b => b.2.2.1)).foldl (· + ·) 0
        let d := match d.engineFor [12, 13] (t.hash r) with | some c => d.gthBump c 0x20 clamps | none => d
        d.replDrop t r

/-- Entries of a set in use, by address. -/
def Dev.updUsed (d : Dev) (t : EmbTable) (set : Nat) : List Nat :=
  if d.emb.sets.contains (t.id * 4 + set) then
    ((List.range t.updCap).map (fun i => d.updSet t set + i * updEntry t)).filter (fun x => d.mnum x 8 != 2 ^ 64 - 1)
  else []

/-- Apply the set of a tag and clear it. -/
def Dev.applySet (d : Dev) (t : EmbTable) (tag : Nat) : Dev :=
  let l := d.updUsed t (tag % 4)
  let d := l.foldl (fun d x => d.applyEntry t x) d
  l.foldl (fun d x => d.mwrite x (leB 8 (2 ^ 64 - 1))) d

/-- Work of a lookup request that may still read rows (R205): a gather that has not, or what comes before the gathers of its
pipeline, a task or a packet of a role other than NORM, ENCODE and the port's (DEDUCED, log entry 98). -/
def Dev.lookupReads (d : Dev) (arg : Nat) : Bool :=
  let past (role : Nat) : Bool := role == 5 || role == 11 || role == 15
  d.quads.any (fun e =>
    e.2.tasks.any (fun t => t.tag == BitVec.allOnes 48 && bits t.arg 12 0 == arg && !t.mute && !past t.role
        && (t.role != 12 || (t.phase != .worked && t.phase != .finished)))
      || (e.2.inbound ++ e.2.held).any (fun x => Pkt.tag x.2.pkt == 2 ^ 48 - 1 && bits (Pkt.arg x.2.pkt) 12 0 == arg
        && !past (Pkt.role x.2.pkt)))

/-- Whether reads that began before an application became due are still in progress (R205, R297). -/
def Dev.readsLeft (d : Dev) (u : UpdDue) : Bool :=
  d.selected.any (fun e => e.2.role == 12 && e.2.phase != .worked && d.gatherStep e.2 < u.atStep
      && (embPools e.2.params).any (fun p => p.table.id == u.table))
  || d.eths.any (fun e => e.2.slots.any (fun s => s.2.step < u.atStep && d.lookupReads (e.1 * 4096 + s.1)))

/-- UPDATE_APPLY (R306): the first application of a table that is due, once the reads before it have ended. -/
def Dev.updateApply (d : Dev) (table : Nat) : Dev :=
  match d.emb.due.find? (fun u => u.table == table), d.table table with
  | some u, some t =>
    if d.readsLeft u then d
    else
      let d := d.applySet t u.tag
      { d with emb := { d.emb with due := d.emb.due.erase u } }
  | _, _ => d

/-- Tables that take updates, each once. -/
def Dev.updTables (d : Dev) : List EmbTable :=
  let ts := d.tables.filter (fun t => t.updAlloc != 0)
  (dedup (ts.map (·.id))).filterMap (fun i => ts.find? (fun t => t.id == i))

/-- At the bell that begins the step now counted: every table's set of tag s − APPLY_LAG is due (R306). -/
def Dev.updBell (d : Dev) : Dev :=
  let new := d.updTables.filterMap (fun t => if t.lag ≤ d.step then some { table := t.id, tag := d.step - t.lag, atStep := d.step : UpdDue } else none)
  { d with emb := { d.emb with due := d.emb.due ++ new } }

/-- At a full switch (R308): at a bell the sets due are applied, and sums in the others are discarded and counted. Those
still in flight are dropped: what has been received here already, and what arrives for the outgoing Plat later. -/
def Dev.updSwitch (d : Dev) (atBell : Bool) : Dev :=
  let d := if atBell then d.emb.due.foldl (fun d u => match d.table u.table with | some t => d.applySet t u.tag | none => d) d else d
  let d := d.updTables.foldl (fun (d : Dev) t =>
    (List.range 4).foldl (fun (d : Dev) (s : Nat) => d.tableCount t 48 8 (d.updUsed t s).length) d) d
  { d with emb := { gathers := d.emb.gathers, switched := if d.updTables.isEmpty then none else some d.step }
           fab := { d.fab with inbox := d.fab.inbox.filter (fun m => !m.forwardedSum) } }

/-- GTH_STATUS (R311). -/
def Dev.gthStatus (d : Dev) (c : Nat) : Nat :=
  let s := d.seat (1152 + c)
  let ids := (embTables s.params).map (·.id)
  let q := c / 9
  let held := s.role == 12 && (d.quad q).tasks.any (fun t => t.phase == .held && t.role == 12 && d.gated q t)
  b2n (d.running (1152 + c)).isSome + at_ (b2n ((s.role == 12 || s.role == 13) && d.emb.due.any (fun u => ids.contains u.table))) 1
    + at_ (b2n (s.role != 0 && d.rbit (gth c 0) 0 && !d.emb.refresh.isEmpty)) 2 + at_ (b2n held) 3

end Sys2Proof.Machine
end

