-- ==== Sys2Proof/Machine/Encode.lean ====
section
/-! DEFINITION. ENCODE seats: feature tokens from batches and from sequences, and tokens of lookup work (R38 to R42). -/
namespace Sys2Proof.Machine

/-- A field entry (R39). -/
structure EncField where
  kind : Nat
  src : Nat
  dst : Nat
  size : Nat
  elem : Nat
  deriving DecidableEq, Repr, Inhabited

def encFields (p : Bytes) : List EncField :=
  (List.range (fld p 0 2)).map (fun i =>
    let o := 32 + 16 * i
    { kind := fld p o 1, src := fld p (o + 2) 2, dst := fld p (o + 4) 2, size := fld p (o + 6) 2, elem := fld p (o + 8) 4 })

/-- SIZE of a field: the 16-bit entry spells 65,536 as 0. -/
def EncField.bytes (f : EncField) : Nat := if f.size = 0 then 65536 else f.size

/-- The column and its acceptance by a field of INPUT 0 (R39). -/
def EncField.accepts (f : EncField) (b : DBatch) : Bool :=
  match f.kind with
  | 1 => (b.col f.src).isSome
  | 2 => match b.col f.src with | some c => c.scaled b.samples | none => false
  | 3 => match b.col f.src with | some c => (c.type == 4 || c.type == 8) && c.flat b.samples | none => false
  | 5 => match b.col f.src with | some c => c.type == 9 && c.flat b.samples | none => false
  | _ => true

/-- First and past-the-end value index of a row. -/
def BCol.rowSpan (c : BCol) (samples row : Nat) : Nat × Nat :=
  let (lo, hi) := (c.arrays samples).1.foldl (fun (a : Nat × Nat) o => (o.getD a.1 0, o.getD a.2 0)) (row, row + 1)
  let k := c.per samples
  (lo * k, hi * k)

/-- The bytes of a field of INPUT 0 for a row (R39). -/
def EncField.ofRow (f : EncField) (b : DBatch) (tag : Tag) (row : Nat) : Bytes :=
  let n := b.samples
  let raw : Bytes := match f.kind, b.col f.src with
    | 1, some c =>
      let (lo, hi) := c.rowSpan n row
      (List.range (hi - (lo + f.elem))).flatMap (fun i => (c.val n (lo + f.elem + i)).getD (zeros c.width))
    | 2, some c =>
      let (lo, hi) := c.rowSpan n row
      let blocks := if lo < hi then (List.range ((hi - 1) / 32 + 1 - lo / 32)).map (· + lo / 32) else []
      (blocks.drop f.elem).flatMap (fun k => leB 2 (c.scale n (32 * k)))
    | 3, some c => (c.val n row).getD (zeros 8)
    | 4, _ => leB f.bytes row
    | 5, some c => leB 2 (match c.val n row with | some (v :: _) => b2n (v != 0#8) | _ => 0)
    | 6, _ => leB f.bytes tag.toNat
    | _, _ => []
  padTo f.bytes (raw.take f.bytes)

/-- The bytes of a field of INPUT 1 for a position (R39, R242). -/
def EncField.ofPos (f : EncField) (key : Nat) (tag : Tag) (pos : Nat) (rec : Bytes) : Bytes :=
  let flags := fld rec 8 2
  let raw : Bytes := match f.kind with
    | 1 => slice rec (16 + f.src) f.bytes
    | 3 => leB 8 key
    | 4 => leB f.bytes pos
    | 5 => leB 2 (b2n (bit (fld rec (16 + f.src) 1) f.elem) + b2n (bit flags 0) * 2 + b2n (bit flags 1) * 4)
    | 6 => leB f.bytes tag.toNat
    | _ => []
  padTo f.bytes (raw.take f.bytes)

/-- A token of TOKEN_BYTES: each field at its DST, zero elsewhere. -/
def token (size : Nat) (fields : List (Nat × Bytes)) : Bytes := fields.foldl (fun t f => patch t f.1 f.2) (zeros size)

/-- Tokens of INPUT 0: one for each row asked for. -/
def rowToken (p : Bytes) (b : DBatch) (tag : Tag) (row : Nat) : Bytes :=
  token (fld p 16 4) ((encFields p).map (fun f => (f.dst, f.ofRow b tag row)))

/-- Split sequences (R242): key and position records of each; none for a remainder that is not a whole sequence. -/
def splitSeqs (rb : Nat) : Nat → Bytes → Option (List (Nat × List Bytes))
  | 0, b => if b.isEmpty then some [] else none
  | f + 1, b =>
    if b.isEmpty then some []
    else
      let n := fld b 20 4
      if b.length < 32 ∨ b.length < 32 + n * (16 + rb) then none
      else
        let recs := (List.range n).map (fun i => slice b (32 + i * (16 + rb)) (16 + rb))
        (splitSeqs rb f (b.drop (32 + n * (16 + rb)))).map (fun t => (fld b 0 8, recs) :: t)

/-- What a task makes of its input (R40): none is FORMAT. -/
def Dev.encInput (d : Dev) (p : Bytes) (tag : Tag) (subst : Bool) (raw : Bytes) : Option EncOut :=
  let stream := fld p 2 1
  if fld p 3 1 = 0 then
    match d.readBatch raw with
    | none => none
    | some b =>
      if (encFields p).all (·.accepts b) then
        let rows := (List.range b.samples).filter (fun r => b.valid.getD r false)
        some { stream, data := rows.flatMap (rowToken p b tag), positions := rows.length, tokens := rows.length
               sequences := 0, corrupt := decide (0 < b.voided), subst := decide (0 < b.substituted) }
      else none
  else
    match splitSeqs (fld p 24 4) (raw.length / 32 + 1) raw with
    | none => none
    | some seqs =>
      let tokens := seqs.flatMap (fun s => (List.range s.2.length).map (fun i =>
        token (fld p 16 4) ((encFields p).map (fun f => (f.dst, f.ofPos s.1 tag i (s.2.getD i []))))))
      let pads := (seqs.flatMap (·.2)).filter (fun r => bit (fld r 8 2) 0)
      some { stream, data := tokens.flatten, positions := tokens.length, tokens := tokens.length - pads.length
             sequences := seqs.length, corrupt := false, subst }

/-- The route of lookup work: from the seat to an Ethernet port seat of this station (R42). -/
def Task.portRoute (t : Task) : Option Route :=
  t.routes.find? (fun r => r.dkind == 0 && match denseSeat r.dest with | some s => decide (1300 ≤ s) | none => false)

/-- The region of lookup work: for each row its key and its token; zero tokens for rows that are not valid (R42). -/
def lookupRegion (p : Bytes) (b : DBatch) (key : BCol) (tag : Tag) : Bytes :=
  (List.range b.samples).flatMap (fun r =>
    (key.val b.samples r).getD (zeros 8)
      ++ (if b.valid.getD r false then rowToken p b tag r else zeros (fld p 16 4)))

/-- ENCODE_TASK (R40, R42). -/
def Dev.encodeTask (d : Dev) (s : Nat) : Dev :=
  match d.atWork s 11 with
  | none => d
  | some (q, t) =>
    let p := t.params
    if bit t.arg 31 then d
    else if t.tag = BitVec.allOnes 48 then
      match t.portRoute with
      | none => d.workFail q t.uid .descInvalid
      | some r =>
        if fld p 6 2 = 0xFFFF then d.workFail q t.uid .descInvalid
        else
          let (e, data) := d.operandData t 0
          match data with
          | none => e.workFail q t.uid .eccUncorrectable
          | some raw =>
            match e.taskBatch t raw (e.readBatch raw) with
            | none => e.colFormat s q t.uid {}
            | some b =>
              match b.col (fld p 6 2) with
              | none => e.colFormat s q t.uid {}
              | some key =>
                if !((key.type = 4 ∨ key.type = 8) ∧ key.flat b.samples) ∨ !(encFields p).all (·.accepts b) then
                  e.colFormat s q t.uid {}
                else
                  match e.place (fld p 8 4) (fld p 12 4) [lookupRegion p b key t.tag] with
                  | .full => e.workFail q t.uid .outputFull
                  | .wait => d
                  | .done rs e => e.workDone q t.uid .ok (rs.map (fun x => { x with only := some r.id }))
    else if t.arg ≠ 0 then d.workFail q t.uid .descInvalid
    else
      let len := ((t.operand 0).map Pkt.length).getD 0
      let d0 := d
      let (d, data) := d.operandData t 0
      match data with
      | none => d.workFail q t.uid .eccUncorrectable
      | some raw =>
        let out : Option EncOut :=
          if len = 0 then some { stream := fld p 2 1, data := [], positions := 0, tokens := 0, sequences := 0, corrupt := false, subst := false }
          else d.encInput p t.tag t.subst raw
        match out with
        | none => if fld p 3 1 = 0 then d.colFormat s q t.uid {} else d.workFail q t.uid .format
        | some o =>
          if ((d.emitSt o.stream).batch t.tag).isNone && d0.laneBefore q t then d0
          else match d.openBatch t.tag o.stream with
            | none => d0
            | some d => (d.workDone q t.uid .ok []).updTask q t.uid (fun t => { t with enc := some o })

end Sys2Proof.Machine
end

