-- ==== Sys2Proof/Machine/Route.lean ====
section
/-! DEFINITION. Sending a result on the routes of its source (R61, R62, R84, R148, R381). -/
namespace Sys2Proof.Machine

/-- Send a result on one route: the state after, the message that awaits an ACK, and the status of a failure. -/
def Dev.sendRoute (d : Dev) (q uid seat : Nat) (tag : Tag) (x : Result) (r : Route) : Dev × Option Nat × Option Status :=
  let arg := x.arg.getD r.arg
  if r.dkind ≤ 1 then
    (d.routePacket r q (seatRef seat) tag.toNat x.payload x.length arg x.corrupt x.subst, none, none)
  else if r.dkind = 3 then
    let (d, bad) := d.touch x.payload x.length
    if bad then (d, none, some .eccUncorrectable)
    else
      let pkt := mkPkt r.dquad r.role 0 0xFFFF r.lane r.opcount r.slot r.pri tag.toNat 0 x.length arg
      match d.sendWaiting r.dest 0 r.tc (pkt ++ d.mread x.payload x.length) (.result q uid) with
      | (some (id, d), _) => (d, some id, none)
      | (none, d) => (d, none, some .linkDown)
  else if r.dkind = 4 then
    ({ d with host := { d.host with deliveries := d.host.deliveries ++
        [{ ring := r.dest, stream := none, status := if x.corrupt then .corruptSample else if x.subst then .substituted else .ok
           addr := x.payload, length := x.length }] } }, none, none)
  else (d, none, none)

/-- Send a result on every route of its source, in ascending ROUTE_ID: the state after, the messages that await an ACK, and
the first failure. -/
def Dev.sendResult (d : Dev) (q uid seat : Nat) (routes : List Route) (tag : Tag) (x : Result) : Dev × List Nat × Option Status :=
  (routes.filter (fun r => x.only.isNone || x.only == some r.id)).foldl (fun (a : Dev × List Nat × Option Status) r =>
    let (d, id, st) := a.1.sendRoute q uid seat (x.tag.getD tag) x r
    (d, a.2.1 ++ id.toList, if a.2.2.isSome then a.2.2 else st)) (d, [], none)

end Sys2Proof.Machine
end

