-- ==== Sys2Proof/Machine/TableFormats.lean ====
section
/-! DEFINITION. The DECODE parameter block, and what a channel makes of Arrow messages and Parquet pages (R163, R164, R167,
R179). Where the tables leave a choice it is log entry 94's. -/
namespace Sys2Proof.Machine

/-! The DECODE parameter block (R179) -/

def Dp.flags (p : Bytes) : Nat := fld p 2 1
def Dp.window (p : Bytes) : Nat := fld p 3 1
def Dp.samples (p : Bytes) : Nat := fld p 4 4
def Dp.cols (p : Bytes) : Nat := fld p 8 2
def Dp.poolN (p : Bytes) : Nat := fld p 10 2
def Dp.stride (p : Bytes) : Nat := fld p 12 4
def Dp.outAlloc (p : Bytes) : Nat := fld p 16 4
def Dp.poolAlloc (p : Bytes) : Nat := fld p 20 4
def Dp.cacheAlloc (p : Bytes) : Nat := fld p 24 4
def Dp.slotBytes (p : Bytes) : Nat := fld p 28 4
def Dp.seed (p : Bytes) : Nat := fld p 32 8
def Dp.indexCap (p : Bytes) : Nat := fld p 48 8

/-- A column entry (R179). -/
structure DecCol where
  source : Nat
  type : Nat
  out : Nat
  depth : Nat
  maxList : Nat
  maxBytes : Nat
  deriving DecidableEq, Repr, Inhabited

def decCols (p : Bytes) : List DecCol :=
  (List.range (Dp.cols p)).map (fun i =>
    let o := 64 + 16 * i
    { source := fld p o 2, type := fld p (o + 2) 1, out := fld p (o + 3) 1, depth := fld p (o + 4) 1, maxList := fld p (o + 8) 4
      maxBytes := fld p (o + 12) 4 })

/-! Storage types (R163, R164, R179) -/

/-- Schema type code of an integer of some width. -/
def intType (bits : Nat) (signed : Bool) : Option Nat :=
  match bits with
  | 8 => some (if signed then 1 else 5)
  | 16 => some (if signed then 2 else 6)
  | 32 => some (if signed then 3 else 7)
  | 64 => some (if signed then 4 else 8)
  | _ => none

/-- The schema type code, list depth and width of an Arrow type; none for a type that is not accepted. A list is one level of a
fixed-width integer, boolean or float type. -/
def arrowStands : ArrowType → Option (Nat × Nat × Nat)
  | .int b s => (intType b s).map (fun t => (t, 0, 0))
  | .bool => some (9, 0, 0)
  | .stored b => (intType b true).map (fun t => (t, 0, 0))
  | .float 32 => some (0xA, 0, 0)
  | .float 64 => some (0xB, 0, 0)
  | .float _ => none
  | .binary => some (0xC, 0, 0)
  | .fixedBinary w => some (0xD, 0, w)
  | .list t => match arrowStands t with
    | some (c, 0, _) => if c ≤ 0xB then some (c, 1, 0) else none
    | _ => none
  | .other => none

/-- A dictionary is of Binary, Utf8 or integer values, with indices of 8, 16 or 32 bits. -/
def dictOk (f : ArrowField) : Bool :=
  match f.dict with
  | none => true
  | some (_, bits) => (bits == 8 || bits == 16 || bits == 32) && match f.type with
    | .binary => true
    | .int .. => true
    | .stored .. => true
    | _ => false

/-- A column entry takes an Arrow field (R179). -/
def DecCol.takesField (e : DecCol) (f : ArrowField) : Bool :=
  dictOk f && match arrowStands f.type with
    | some (t, depth, w) => t == e.type && depth == e.depth && (t != 0xD || w == e.maxBytes)
    | none => false

/-- A schema matches the parameter block: little-endian, up to 1,024 top-level fields, every entry's SOURCE a field that it takes.
Fields that no entry selects may be of any type. -/
def schemaFits (p : Bytes) (little : Bool) (fs : List ArrowField) : Bool :=
  little && fs.length ≤ 1024 && (decCols p).all (fun e => match fs[e.source]? with | some f => e.takesField f | none => false)

/-- A column entry takes a Parquet storage type: physical, whatever its annotation. -/
def DecCol.takesType (e : DecCol) (t : PqType) : Bool :=
  match t with
  | .int32 => e.type == 3
  | .int64 => e.type == 4
  | .boolean => e.type == 9
  | .float => e.type == 0xA
  | .double => e.type == 0xB
  | .byteArray => e.type == 0xC
  | .fixedLen w => e.type == 0xD && w == e.maxBytes
  | .int96 => false

/-! Cells -/

/-- A cell with its dictionary looked up; none for an index out of range or a level above the schema maximum (R167). -/
def resolveCell (dict : List Bytes) (c : RawCell) : Option Cell :=
  let vals := c.vals.map (fun v => match v with
    | .null => some none
    | .bytes b => some (some b)
    | .index i => if i < 0 then none else (dict[i.toNat]?).map some)
  if c.levelBad ∨ vals.any (·.isNone) then none else some { lens := c.lens, vals := vals.filterMap id }

/-- A cell obeys its column entry (R167). -/
def DecCol.cellOk (e : DecCol) (c : Cell) : Bool :=
  let counts := c.lens.foldl (fun (a : Nat × Bool) l => (l.foldl (· + ·) 0, a.2 && l.length == a.1)) (1, true)
  c.lens.length == e.depth && counts.2 && c.vals.length == counts.1 && c.lens.all (fun l => l.all (· ≤ e.maxList))
    && c.vals.all (fun v => match v with
      | none => true
      | some b => if e.type = 0xC then b.length ≤ e.maxBytes else b.length == (if e.type = 0xD then e.maxBytes else typeBytes e.type))

/-- A row as a sample; none when any cell failed. -/
def rowSample (p : Bytes) (cells : List (Option Cell)) : Option Sample :=
  let es := decCols p
  if cells.length = es.length ∧ (cells.zip es).all (fun x => match x.1 with | some c => x.2.cellOk c | none => false)
  then some (cells.filterMap id) else none

/-- The lengths of one list level of a row that a page's end has cut, and of its rest, whose first value has repetition level r. -/
def joinLens (r i : Nat) (a b : List Nat) : List Nat :=
  if i < r then a.dropLast ++ [a.getLastD 0 + b.headD 0 - (if i + 1 < r then 1 else 0)] ++ b.drop 1 else a ++ b

/-- A row that goes on in the next page (R164: it ends at the next repetition level 0). -/
def joinRow (r : Nat) (a b : Option Cell) : Option Cell :=
  match a, b with
  | some a, some b => some { lens := (List.range a.lens.length).map (fun i => joinLens r i (a.lens.getD i []) (b.lens.getD i []))
                             vals := a.vals ++ b.vals }
  | _, _ => none

/-! What reading comes to -/

/-- What reading a descriptor comes to. -/
structure Parsed where
  x : IchSt
  items : List (Option Sample) := []
  status : Status := .ok
  /-- How each expansion ended: 0 OK, 1 FORMAT, 2 DECLARED_SIZE (R340). -/
  expands : List Nat := []
  deriving DecidableEq, Repr, Inhabited

def Parsed.setStatus (a : Parsed) (st : Status) : Parsed := { a with status := if a.status = .eccUncorrectable then a.status else st }

/-- A message or page has failed as a whole, by an uncorrectable error (`bad`) or not (R167). -/
def Parsed.fail (a : Parsed) (bad : Bool) : Parsed := a.setStatus (if bad then .eccUncorrectable else .format)

/-- Framing loss (R167, R168). -/
def Parsed.framing (a : Parsed) : Parsed := { a.fail false with x := { a.x with resync := true } }

/-! Arrow (R163) -/

/-- An Arrow message as it stands in a descriptor: its first four bytes are the continuation marker, and whether reading it met an
uncorrectable error. -/
structure ArrowItem where
  msg : ArrowMsg
  marker : Bool
  bad : Bool
  deriving DecidableEq, Repr, Inhabited

/-- The fields in force behind a message. -/
def fieldsAfter (m : ArrowMsg) (fs : List ArrowField) : List ArrowField :=
  match m.content with | .schema _ g => g | _ => fs

/-- The messages of a descriptor, each with its offset and length, from an offset on. The fuel bounds their number. -/
def arrowSplit (raw : Bytes) : Nat → List ArrowField → Nat → List (ArrowMsg × Nat × Nat)
  | 0, _, _ => []
  | n + 1, fs, off =>
    if raw.length ≤ off then []
    else
      let m := Config.arrowNext fs (raw.drop off)
      let k := min (max 8 m.len) (raw.length - off)
      (m, off, k) :: arrowSplit raw n (fieldsAfter m fs) (off + k)

/-- How the expansions of a body end, in order, up to the first that fails. -/
def bodyExpands (ratio fmt : Nat) : List (Nat × Bytes) → List Nat
  | [] => []
  | (n, b) :: t => match expandWhy ratio n fmt b with
    | some w => [w]
    | none => 0 :: bodyExpands ratio fmt t

def risesInt (l : List Int) : Bool := (l.zip l.tail).all (fun x => decide (x.1 ≤ x.2))

/-- Buffers that a record batch may have: 8-byte aligned, within the body, offsets rising within what they point into, an accepted
body compression; and how the expansions ended. -/
def readBufs (b : ArrowBuffers) (ratio : Nat) : Bool × List Nat :=
  let laid := b.at_.all (fun x => x.1 % 8 == 0 && decide (x.1 + x.2 ≤ b.body))
    && b.offsets.all (fun o => risesInt o.1 && o.1.all (fun v => decide (0 ≤ v) && decide (v ≤ o.2)))
  match b.codec with
  | none => (laid, [])
  | some f =>
    if !laid ∨ (f ≠ 5 ∧ f ≠ 6) then (false, [])
    else let ws := bodyExpands ratio f b.streams; (ws.all (· == 0), ws)

/-- The row of a record batch as a sample: the cells of the selected fields, dictionaries looked up. -/
def arrowRow (x : IchSt) (fs : List ArrowField) (row : List RawCell) : Option Sample :=
  rowSample x.params ((decCols x.params).map (fun e =>
    let dict := match (fs[e.source]?).bind (·.dict) with | some (id, _) => tget [] x.dicts id | none => []
    (row[e.source]?).bind (resolveCell dict)))

/-- Messages in order, up to a framing loss (R163, R167). -/
def arrowMsgs (ratio : Nat) : List ArrowItem → Parsed → Parsed
  | [], a => a
  | it :: t, a =>
    if !it.marker || !it.msg.whole then a.framing
    else
      let dated := it.msg.version == 5
      match it.msg.content, a.x.schema with
      | .endOfStream, _ => arrowMsgs ratio t { a with x := { a.x with schema := none, dicts := [] } }
      | .schema little fs, none =>
        if !dated || it.bad || !schemaFits a.x.params little fs then (if it.bad then a.fail true else a).framing
        else arrowMsgs ratio t { a with x := { a.x with schema := some fs, dicts := [], resync := false } }
      | .dictionary id delta bufs vs, some _ =>
        let old := if delta then tget [] a.x.dicts id else []
        if !dated || 1048576 < (old ++ vs).length then a.framing
        else
          let (ok, ws) := readBufs bufs ratio
          let a := { a with expands := a.expands ++ ws }
          if it.bad || !ok then arrowMsgs ratio t { a.fail it.bad with x := { a.x with dicts := tput a.x.dicts id [] } }
          else arrowMsgs ratio t { a with x := { a.x with dicts := tput a.x.dicts id (old ++ vs) } }
      | .batch n bufs rows, some fs =>
        if !dated || 16777216 < n then a.framing
        else
          let (ok, ws) := readBufs bufs ratio
          let a := { a with expands := a.expands ++ ws }
          if it.bad || !ok then
            arrowMsgs ratio t { a.fail it.bad with items := a.items ++ List.replicate n none }
          else arrowMsgs ratio t { a with items := a.items ++ (List.range n).map (fun i => arrowRow a.x fs (rows.getD i [])) }
      | _, _ => a.framing

/-- An Arrow descriptor. After a framing loss it is discarded unless it starts with a Schema message (R168). -/
def readArrow (ratio : Nat) (x : IchSt) (items : List ArrowItem) : Parsed :=
  if x.resync then
    match items with
    | { msg := { content := .schema .., .. }, .. } :: _ => arrowMsgs ratio items { x := { x with schema := none } }
    | _ => ({ x } : Parsed).fail false
  else arrowMsgs ratio items { x }

/-! Parquet (R164) -/

/-- A Parquet page as it stands in a descriptor, and whether reading it met an uncorrectable error. -/
structure PqItem where
  page : PqPage
  bad : Bool
  deriving DecidableEq, Repr, Inhabited

/-- The pages of a descriptor of column entry k, each with its offset and length. -/
def pageSplit (p : Bytes) (k : Nat) (raw : Bytes) : Nat → Nat → List (PqPage × Nat × Nat)
  | 0, _ => []
  | n + 1, off =>
    if raw.length ≤ off then []
    else
      let g := Config.parquetNext p k (raw.drop off)
      let m := if g.readable then min (max 1 g.len) (raw.length - off) else raw.length - off
      (g, off, m) :: pageSplit p k raw n (off + m)

/-- An encoding is accepted for a page's values: booleans alone may be RLE, integers alone delta-packed. -/
def encodingOk (g : PqPage) : Bool :=
  match g.encoding with
  | .plain => true
  | .plainDictionary => true
  | .rleDictionary => g.kind != .dictionary
  | .rle => g.kind != .dictionary && g.type == .boolean
  | .deltaBinaryPacked => g.kind != .dictionary && (g.type == .int32 || g.type == .int64)
  | _ => false

/-- The format code of R333 that expands a page; none where nothing is compressed. -/
def codecFormat : PqCodec → Option Nat
  | .snappy => some 7
  | .lz4Raw => some 4
  | .zstd => some 6
  | _ => none

def codecOk (c : PqCodec) : Bool := c == .uncompressed || (codecFormat c).isSome

/-- The acceptance of a page before anything is expanded (R164). -/
def pageOk (g : PqPage) (e : DecCol) : Bool :=
  g.readable && !g.encrypted && g.kind != .index && encodingOk g && g.levels.all (· == .rle) && codecOk g.codec
    && e.takesType g.type && g.rep ≤ 4 && g.defn ≤ 8 && g.rep == e.depth && g.size ≤ 2 ^ 24 && g.full ≤ 2 ^ 24

/-- A page that can be decoded, and how its expansion ended. -/
def readPage (g : PqPage) (ratio : Nat) (e : DecCol) : Bool × List Nat :=
  if !pageOk g e then (false, [])
  else
    let sized := g.decoded == g.full && g.count ≤ g.held
    match codecFormat g.codec with
    | none => (sized, [])
    | some f => match expandWhy ratio g.streamFull f g.stream with
      | some w => (false, [w])
      | none => (sized, [0])

/-- Rows of a page behind those that wait: the first may go on with the last of them. -/
def putRows (first : Nat) (waiting rows : List (Option Cell)) : List (Option Cell) :=
  match rows with
  | r :: t => if first = 0 ∨ waiting = [] then waiting ++ rows else waiting.dropLast ++ joinRow first (waiting.getLastD none) r :: t
  | [] => waiting

/-- The pages of column entry k in order (R164, R167): once one has failed, the column's later pages in the row group are skipped. -/
def pageMsgs (ratio k : Nat) (e : DecCol) : List PqItem → Parsed → Parsed
  | [], a => a
  | it :: t, a =>
    let g := a.x.group.getD { rows := 0 }
    if g.failed.contains k then a
    else if it.page.readable && !it.page.whole then a.framing
    else
      let (ok, ws) := readPage it.page ratio e
      let a := { a with expands := a.expands ++ ws }
      if it.bad || !ok then { a.fail it.bad with x := { a.x with group := some { g with failed := k :: g.failed } } }
      else
        let g := if it.page.kind == PqKind.dictionary then { g with dicts := tput g.dicts k it.page.dict }
          else { g with waiting := tmod [] g.waiting k (fun w =>
            putRows it.page.first w (it.page.rows.map (resolveCell (tget [] g.dicts k)))) }
        pageMsgs ratio k e t { a with x := { a.x with group := some g } }

/-- The next row of column entry k is complete: a row of a repeated column ends where the next begins, the last of the group with
its page. -/
def RowGroup.ready (g : RowGroup) (es : List DecCol) (k : Nat) : Bool :=
  let w := tget [] g.waiting k
  g.failed.contains k || (if (es.getD k default).depth = 0 then w != [] else 2 ≤ w.length || (w != [] && g.rows ≤ g.placed + w.length))

/-- Rows of a row group that every column has reached (R164, R167). The fuel is the rows not yet placed. -/
def groupRows (p : Bytes) : Nat → RowGroup → RowGroup × List (Option Sample)
  | 0, g => (g, [])
  | n + 1, g =>
    let ks := List.range (Dp.cols p)
    if ks.all (g.ready (decCols p)) then
      let s := rowSample p (ks.map (fun k => ((tget [] g.waiting k).head?).getD none))
      let g := { g with placed := g.placed + 1, waiting := g.waiting.map (fun (e : Nat × List (Option Cell)) => (e.1, e.2.drop 1)) }
      let (g, t) := groupRows p n g
      (g, s :: t)
    else (g, [])

/-- Bring the rows of the group that are complete to the samples. -/
def Parsed.rows (a : Parsed) : Parsed :=
  match a.x.group with
  | none => a
  | some g =>
    let (g, rs) := groupRows a.x.params (g.rows - g.placed) g
    { a with x := { a.x with group := some g }, items := a.items ++ rs }

/-- A row-group marker (R164): what the group before it has not finished is voided. -/
def markerIn (bad : Bool) (raw : Bytes) (x : IchSt) : Parsed :=
  let n := fld raw 0 8
  let a : Parsed := { x, status := if bad then .eccUncorrectable else .ok }
  if bad ∨ raw.length ≠ 16 ∨ fld raw 8 2 ≠ Dp.cols x.params ∨ !zeroAt raw 10 6 ∨ n = 0 ∨ 2 ^ 31 ≤ n then a.framing
  else
    let short := match x.group with | some g => g.rows - g.placed | none => 0
    { a with items := List.replicate short none, x := { x with group := some { rows := n }, resync := false } }

/-- A Parquet descriptor of column entry k. -/
def readPages (ratio : Nat) (x : IchSt) (k : Nat) (items : List PqItem) : Parsed :=
  let a : Parsed := { x }
  if x.resync then a.fail false
  else if x.group.isNone then a.framing
  else (pageMsgs ratio k ((decCols x.params).getD k default) items a).rows

end Sys2Proof.Machine
end

