-- ==== Sys2Proof/Machine/Intake.lean ====
section
/-! DEFINITION. Table intake: ingest channels, batch assembly, float intake, corrupt samples, the epoch cache and its replay,
host assist (R159 to R180). -/
namespace Sys2Proof.Machine

/-- Cache mode (R171), as the register holds it. -/
def Dev.cacheMode (d : Dev) (c : Nat) : Nat := d.rf (ichReg c 0) 29 28

/-! Float intake (R165, R166) -/

/-- What a stored floating-point value is. -/
inductive FloatVal where
  | nan
  | inf (neg : Bool)
  | fin (v : Frac)
  deriving DecidableEq, Repr, Inhabited

/-- Decode a binary32 (type 0x0A) or binary64 value. -/
def floatVal (type : Nat) (b : Bytes) : FloatVal :=
  let (w, f) : Nat × Nat := if type = 0xA then (8, 23) else (11, 52)
  let x := ofLe b
  let frac := x % 2 ^ f
  let e := x / 2 ^ f % 2 ^ w
  let neg := bit x (w + f)
  let top := 2 ^ w - 1
  let bias : Int := (2 ^ (w - 1) : Nat) - 1 + f
  if e = top then (if frac = 0 then .inf neg else .nan)
  else
    let m : Nat := if e = 0 then frac else 2 ^ f + frac
    .fin (Frac.pow2 (if neg then -(m : Int) else m) ((if e = 0 then 1 else (e : Int)) - bias))

/-- A block of 32 values: its scale, the stored values, and what FLOAT_SAT_CNT gains. -/
def floatBlock (type out : Nat) (vs : List (Option Bytes)) : Nat × List (Option Bytes) × Nat :=
  let fs := vs.map (fun v => v.map (floatVal type))
  let (s, qs, n) := quantBlock (qMax out) (fs.map (fun f => match f with | some (.fin x) => some x | _ => none))
  let infs := (fs.filter (fun f => match f with | some (.inf _) => true | _ => false)).length
  let put (q : Int) : Option Bytes := some (leB (typeBytes out) (tc (8 * typeBytes out) q))
  (if s = 0 ∧ infs ≠ 0 then scl 1023 31 else s,
   (fs.zip qs).map (fun x => match x.1 with
     | some (.fin _) => put x.2
     | some (.inf neg) => put (if neg then -(qMax out : Int) else qMax out)
     | _ => none),
   n + infs)

/-- All values of a column. -/
def floatColumn (type out : Nat) (vs : List (Option Bytes)) : List Nat × List (Option Bytes) × Nat :=
  (chunk 32 vs).foldl (fun (a : List Nat × List (Option Bytes) × Nat) b =>
    let (s, v, n) := floatBlock type out b
    (a.1 ++ [s], a.2.1 ++ v, a.2.2 + n)) ([], [], 0)

/-! Batch assembly (R162, R168) -/

/-- The cell of a voided or unfilled slot: null, or an empty list. -/
def voidCell (depth : Nat) : Cell :=
  if depth = 0 then { lens := [], vals := [none] } else { lens := [0] :: List.replicate (depth - 1) [], vals := [] }

/-- A batch of a channel from its slots: the batch and its float saturations. -/
def buildBatch (p : Bytes) (tag : Tag) (term flags : Nat) (fills : List SlotFill) : DBatch × Nat :=
  let n := Dp.samples p
  let cols := (decCols p).zip (List.range (Dp.cols p))
  let (cs, sats) := cols.foldl (fun (a : List BCol × Nat) (e : DecCol × Nat) =>
    let cells := (List.range n).map (fun i => match fills[i]? with
      | some { sample := some s, .. } => s.getD e.2 (voidCell e.1.depth)
      | _ => voidCell e.1.depth)
    let (arrays, vals) := joinCells e.1.depth cells
    if e.1.type = 0xA ∨ e.1.type = 0xB then
      let (scales, vs, k) := floatColumn e.1.type e.1.out vals
      (a.1 ++ [mkCol e.2 e.1.out e.1.depth (typeBytes e.1.out) arrays vs scales], a.2 + k)
    else
      (a.1 ++ [mkCol e.2 e.1.type e.1.depth (if e.1.type = 0xD then e.1.maxBytes else typeBytes e.1.type) arrays vals []], a.2)) ([], 0)
  let got (f : SlotFill → Bool) : List Bool := (List.range n).map (fun i => match fills[i]? with | some x => f x | none => false)
  ({ tag := tag.toNat, samples := n, filled := fills.length
     voided := (fills.filter (·.sample.isNone)).length, substituted := (fills.filter (·.subst)).length
     channel := fld p 0 1, flags, term, valid := got (·.sample.isSome), subst := got (·.subst), cols := cs }, sats)

/-- The bytes that a batch of these slots takes. -/
def batchSize (p : Bytes) (fills : List SlotFill) : Nat := (buildBatch p 0 0 0 fills).1.bytes.length

/-- The slot that a sample gets, none for one that could not be decoded (R162, R168, R169): itself, a pool sample, or void. -/
def IchSt.fillFor (x : IchSt) (subst : Bool) (before : List SlotFill) (item : Option Sample) : SlotFill :=
  let p := x.params
  let fits (s : Sample) : Bool := batchSize p (before ++ [{ sample := some s }]) ≤ Dp.slotBytes p
  match item.filter fits with
  | some s => { sample := some s }
  | none =>
    if subst ∧ x.pool ≠ [] then
      match (tfind x.pool (x.substs % x.pool.length)).filter fits with
      | some s => { sample := some s, subst := true }
      | none => { sample := none }
    else { sample := none }

/-- Count a slot just filled (R168, R169). -/
def Dev.countFill (d : Dev) (c : Nat) (f : SlotFill) : Dev :=
  if f.subst then
    let x := d.ich c
    (d.setIch c { x with substs := x.substs + 1 }).bump (ichReg c 0x3C)
  else if f.sample.isNone then d.bump (ichReg c 0x38)
  else d

/-- Address of the sample log within a cache allocation (R171). -/
def logAt (p : Bytes) : Nat := upTo (4096 + Dp.indexCap p * 8) 64

/-- Append a valid sample to the cache (R171). -/
def Dev.cacheAppend (d : Dev) (c : Nat) (s : Sample) : Dev :=
  let x := d.ich c
  let p := x.params
  match d.alloc (Dp.cacheAlloc p) with
  | none => d
  | some a =>
    let b := Config.logForm p s
    let n := x.cached.length
    if Dp.indexCap p ≤ n ∨ a.size < logAt p + x.logEnd + upTo b.length 64 ∨ 2 ^ 24 ≤ b.length then d.wbit (ichReg c 4) 6 true
    else
      let addr := a.base + logAt p + x.logEnd
      let d := (d.mwrite addr b).mwrite (a.base + 4096 + 8 * n) (leB 8 (x.logEnd / 64 + b.length * 2 ^ 40))
      d.setIch c { x with cached := x.cached ++ [(s, addr, b.length)], logEnd := x.logEnd + upTo b.length 64 }

/-- Copy a valid sample into the standby pool (R169); the form of the pool's bytes is open. -/
def Dev.poolCopy (d : Dev) (c : Nat) (s : Sample) : Dev :=
  let x := d.ich c
  let p := x.params
  let i := x.valids
  let d := d.setIch c { x with valids := i + 1 }
  if d.rbit (ichReg c 0) 27 ∧ i % max 1 (Dp.stride p) = 0 ∧ Dp.poolN p ≠ 0 then
    let x := d.ich c
    let d := d.setIch c { x with pool := tput x.pool (i / max 1 (Dp.stride p) % Dp.poolN p) s }
    match d.alloc (Dp.poolAlloc p) with
    | some a => d.scramble a.base a.size
    | none => d
  else d

/-- The next batch step tag of a channel, which then moves on (R161). -/
def Dev.nextTag (d : Dev) (c : Nat) : Tag × Dev :=
  let t := (d.rn2 (ichReg c 8)) % 2 ^ 48
  (BitVec.ofNat 48 t, d.wn2 (ichReg c 8) ((t + 1) % 2 ^ 48))

/-- Place one sample into the open batch, opening one if there is none; none while no slot is free (R161, R162). -/
def Dev.placeSample (d : Dev) (c seat : Nat) (item : Option Sample) : Option Dev :=
  let x := d.ich c
  let p := x.params
  let ready : Option (OpenBatch × Dev) := match x.openB with
    | some b => some (b, d)
    | none => match d.takeSlot (Dp.outAlloc p) (Dp.slotBytes p) with
      | some (a, d) => let (t, d) := d.nextTag c; some ({ slot := a, tag := t.toNat }, d)
      | none => none
  match ready with
  | none => none
  | some (b, d) =>
    let f := x.fillFor (d.rbit (ichReg c 0) 27) b.fills item
    let d := d.countFill c f
    let d := match f.sample, f.subst with
      | some s, false => let d := d.poolCopy c s; if d.cacheMode c = 0 then d else d.cacheAppend c s
      | _, _ => d
    some (d.setIch c { (d.ich c) with openB := some { b with fills := b.fills ++ [f], seat } })

/-- Write a batch to its slot: its result (R161, R168, R169). -/
def Dev.writeBatch (d : Dev) (c slot : Nat) (tag : Tag) (term flags : Nat) (fills : List SlotFill) : Dev × Result :=
  let x := d.ich c
  let (b, sats) := buildBatch x.params tag term flags fills
  let raw := b.bytes.take (Dp.slotBytes x.params)
  let d := (d.mwrite slot raw).bump (ichReg c 0x40) sats
  (d, { payload := slot, length := raw.length, corrupt := decide (0 < b.voided), subst := decide (0 < b.substituted), tag := some tag })

/-- Close the open batch, which is of term 0 (R171): it goes on the routes of the seat that filled its last slot (R161, R170). -/
def Dev.closeOpen (d : Dev) (c : Nat) (short : Bool) : Dev × List Result :=
  let x := d.ich c
  match x.openB with
  | none => (d, [])
  | some b =>
    let (d, r) := (d.setIch c { x with openB := none }).writeBatch c b.slot (BitVec.ofNat 48 b.tag) 0 (if short then 2 else 0) b.fills
    (d, [{ r with from_ := some b.seat }])

/-- Place samples in order, closing batches as they fill; what is left when no slot is free. -/
def placeItems (c seat : Nat) : List (Option Sample) → Dev → List Result → List (Option Sample) × Dev × List Result
  | [], d, rs => ([], d, rs)
  | i :: t, d, rs =>
    match d.placeSample c seat i with
    | none => (i :: t, d, rs)
    | some d =>
      let x := d.ich c
      match x.openB with
      | some b =>
        if Dp.samples x.params ≤ b.fills.length then
          let (d, r) := d.closeOpen c false
          placeItems c seat t d (rs ++ r)
        else placeItems c seat t d rs
      | none => placeItems c seat t d rs

/-! Host assist (R178) -/

/-- The rows of a result batch, by column entries; none when it is not of the channel's layout. -/
def resultRows (p : Bytes) (cols : List Nat) (b : DBatch) : Option (List (List (Option Cell))) :=
  let es := decCols p
  let pick := cols.map (fun k => (b.col k, es.getD k default))
  if pick.all (fun x => match x.1 with | some c => c.type == x.2.type && c.depth == x.2.depth | none => false) then
    some ((List.range (min b.filled b.samples)).map (fun r =>
      if b.valid.getD r false then pick.map (fun x => x.1.map (fun c => c.cell b.samples r)) else cols.map (fun _ => none)))
  else none

/-- The host's result for a diverted descriptor in place of Sahor's own reading `a` of its data, if it is one that can be used:
the schema, dictionaries and markers are those of the data, the rows those of the result. -/
def withResult (x : IchSt) (arg : Nat) (pages : List PqPage) (a : Parsed) (res : Bytes) : Option Parsed :=
  let p := x.params
  match readBatch (fun _ col => blockWidths 1 p (fld p 0 1) col) res with
  | none => none
  | some b =>
    if x.resync then none
    else if fld p 1 1 = 0 then
      (resultRows p (List.range (Dp.cols p)) b).map (fun rs => { x := a.x, items := rs.map (rowSample p) })
    else
      let k := bits arg 15 0
      match x.group with
      | some g =>
        if Dp.cols p ≤ k then none
        else
          let dicts := pages.foldl (fun t (g : PqPage) => if g.kind == PqKind.dictionary then tput t k g.dict else t) g.dicts
          (resultRows p [k] b).map (fun rs =>
            let g := { g with dicts, waiting := tmod [] g.waiting k (· ++ rs.map (fun r => r.headD none)) }
            ({ x := { x with group := some g } } : Parsed).rows)
      | none => none

/-! Channels and their tasks -/

/-- A packet of a ring is still on its way to a quadrant's matching store. -/
def Dev.ringUnderway (d : Dev) (q ring : Nat) : Bool :=
  let mine (a : Arrival) : Bool := match a.origin with | some o => o.ring == ring | none => false
  (d.quad q).inbound.any (fun e => mine e.2) || (d.quad q).held.any (fun e => mine e.2)

/-- Descriptors of the channel's ring that were fetched before its cache was sealed and have not become tasks yet (R175). -/
def Dev.ichComing (d : Dev) (c : Nat) : Bool :=
  match d.ichRing c with
  | some m => d.ringUnderway m.quad m.ring || (d.ring m.ring).fetched.any (fun f => decide (f.serial < (d.ich c).sealAt))
  | none => false

/-- Something of the channel other than one task has yet to be decoded. -/
def Dev.ichBusyBut (d : Dev) (c uid : Nat) : Bool :=
  (d.ichTasks c).any (fun t => t.uid != uid && t.phase != .worked && t.phase != .finished) || d.ichComing c

/-- The first DECODE seat of a channel. -/
def Dev.ichSeat (d : Dev) (c : Nat) : Option Nat :=
  (d.plt.seats.find? (fun e => e.role == 1 && fld e.params 0 1 == c)).bind (fun e => denseSeat e.seat)

/-- A uid that no task has: the batch that a message carries belongs to no task. -/
def noTask : Nat := 2 ^ 64

def Dev.ichBusy (d : Dev) (c : Nat) : Bool := d.ichBusyBut c noTask

/-- Send a batch on a seat's routes, with no task behind it. -/
def Dev.sendBatch (d : Dev) (seat : Nat) (r : Result) : Dev :=
  (d.sendResult ((seatQuad seat).getD 0) noTask seat (d.routesFrom (seatRef seat)) (r.tag.getD 0) r).1

/-- A batch left open when the last of term 0 has been decoded is closed and sent (R171, R175). -/
def Dev.settle (d : Dev) (c : Nat) : Dev :=
  if d.cacheMode c = 2 ∧ (d.ich c).openB.isSome ∧ (d.ich c).work.isNone ∧ !d.ichBusy c then
    let (d, rs) := d.closeOpen c true
    rs.foldl (fun d r => d.sendBatch (r.from_.getD 0) r) d
  else d

/-- Read the pieces of a descriptor's data, each an offset and a length: whether each met an uncorrectable error (R167). -/
def Dev.touchEach (d : Dev) (base : Nat) (l : List (Nat × Nat)) : Dev × List Bool :=
  l.foldl (fun (a : Dev × List Bool) x => let (d, bad) := a.1.touch (base + x.1) x.2; (d, a.2 ++ [bad])) (d, [])

/-- Read an Arrow descriptor (R163). -/
def Dev.readArrow (d : Dev) (x : IchSt) (addr : Nat) (raw : Bytes) : Dev × Parsed :=
  let ms := arrowSplit raw (raw.length / 8 + 1) (x.schema.getD []) 0
  let (d, bads) := d.touchEach addr (ms.map (·.2))
  (d, Machine.readArrow (d.ratio x.quad) x ((ms.zip bads).map (fun (m : (ArrowMsg × Nat × Nat) × Bool) =>
    { msg := m.1.1, marker := fld raw m.1.2.1 4 == 0xFFFFFFFF, bad := m.2 })))

/-- Read a Parquet descriptor (R164): a row-group marker, or pages of one column entry. -/
def Dev.readParquet (d : Dev) (x : IchSt) (arg addr : Nat) (raw : Bytes) : Dev × Parsed :=
  let k := bits arg 15 0
  if k = 0xFFFF then
    let (d, bad) := d.touch addr raw.length
    (d, markerIn bad raw x)
  else
    let ps := pageSplit x.params k raw raw.length 0
    let (d, bads) := d.touchEach addr (ps.map (·.2))
    (d, readPages (d.ratio x.quad) x k ((ps.zip bads).map (fun (g : (PqPage × Nat × Nat) × Bool) => { page := g.1.1, bad := g.2 })))

/-- Read the data of a descriptor (R163, R164, R168), or take the host's result for it (R178). -/
def Dev.readTask (d : Dev) (x : IchSt) (t : Task) : Dev × Parsed :=
  match t.operand 0 with
  | none => (d, { x })
  | some p =>
    if Pkt.length p = 0 then (d, if x.resync then ({ x } : Parsed).fail false else { x })
    else
      let raw := d.mread (Pkt.payload p) (Pkt.length p)
      let (e, a) := if fld x.params 1 1 = 0 then d.readArrow x (Pkt.payload p) raw else d.readParquet x t.arg (Pkt.payload p) raw
      let (f, res) := match t.operand 1 with
        | some r => if Pkt.length r = 0 then (e, none) else d.fetchData (Pkt.payload r) (Pkt.length r)
        | none => (e, none)
      let pages := if fld x.params 1 1 = 0 then [] else (pageSplit x.params (bits t.arg 15 0) raw raw.length 0).map (·.1)
      match res.bind (withResult x t.arg pages a) with
      | some b => (f, b)
      | none => (e, a)

/-- Read the descriptor of a DECODE task into the samples it gives, and the expansions they need (R330). -/
def Dev.beginDecode (d : Dev) (c : Nat) (t : Task) : Dev :=
  let (d, a) := d.readTask (d.ich c) t
  let d := d.setIch c { a.x with work := some { uid := t.uid, items := a.items, status := a.status, toExpand := a.expands } }
  if a.status = .format then d.bump (ichReg c 0x48) else d

/-- Expansions of a channel's task enter the expansion pipe's seat queue while it has room (R330). -/
def Dev.expandEnter (d : Dev) (c : Nat) : Dev :=
  let x := d.ich c
  match x.work with
  | none => d
  | some w =>
    let y := d.pipe x.quad false
    let n := min w.toExpand.length (64 - y.seat_.length)
    if n = 0 then d
    else (d.setPipe x.quad false { y with seat_ := y.seat_ ++ (w.toExpand.take n).map (fun why =>
        { desc := [], src := .decode c w.uid why, tag := 0 }) }).setIch c
      { x with work := some { w with toExpand := w.toExpand.drop n, inPipe := w.inPipe + n } }

/-- DECODE_TASK (R161): the channel's next task is read and expanded, its samples are placed, its batches closed. While no slot
is free the task waits, and what it has closed goes out if no earlier task of its lane is left. -/
def Dev.decodeTask (d : Dev) (s : Nat) : Dev :=
  match d.atWork s 1 with
  | none => d
  | some (q, t) =>
    let c := fld t.params 0 1
    if !d.rbit (ichReg c 0) 31 || d.laneBefore q t then d
    else
      let d := (if ((d.ich c).work.map (·.uid)) = some t.uid then d else d.beginDecode c t).expandEnter c
      match (d.ich c).work with
      | none => d
      | some w =>
        if w.toExpand ≠ [] ∨ w.inPipe ≠ 0 then d
        else
          let (left, d, rs) := placeItems c s w.items d w.results
          if left ≠ [] then
            let first := !(d.quad q).tasks.any (fun u => u.uid < t.uid && u.lane == t.lane)
            let d := if first then rs.foldl (fun d r => d.sendBatch (r.from_.getD s) r) d else d
            d.setIch c { (d.ich c) with work := some { w with items := left, results := if first then [] else rs } }
          else
            let d := d.setIch c { (d.ich c) with work := none }
            let last := d.cacheMode c == 2 && !d.ichBusyBut c t.uid
            let (d, more) := if bit t.arg 30 || last then d.closeOpen c true else (d, [])
            d.workDone q t.uid w.status (rs ++ more)

/-! Replay (R173 to R175) -/

/-- Least b with N ≤ 2^b. -/
def ceilLog2 (n : Nat) : Nat := if n ≤ 1 then 0 else Nat.log2 (n - 1) + 1

/-- One walk of the four Feistel rounds (R173). -/
def feistel (k : BitVec 64) (h x : Nat) : Nat :=
  let m := 2 ^ h
  let r (i : Nat) (a : Nat × Nat) : Nat × Nat :=
    let f := (mix64 (k ^^^ BitVec.ofNat 64 (i * 2 ^ 56) ^^^ BitVec.ofNat 64 a.2)).toNat / 2 ^ (64 - h)
    (a.2, a.1 ^^^ f)
  let a := r 3 (r 2 (r 1 (r 0 (x / m, x % m))))
  a.1 * m + a.2

/-- Walk the cycle until it comes back into range. -/
def cycleWalk (k : BitVec 64) (h n : Nat) : Nat → Nat → Nat
  | 0, x => x
  | f + 1, x => let y := feistel k h x; if n ≤ y then cycleWalk k h n f y else y

/-- perm(j) of R173. -/
def perm (seed term n j : Nat) : Nat :=
  let b := ceilLog2 n
  let b := if b % 2 = 1 then b + 1 else b
  let b := max 2 b
  cycleWalk (mix64 (BitVec.ofNat 64 seed ^^^ BitVec.ofNat 64 term)) (b / 2) n (2 ^ b) j

/-- The channel replays: sealed, enabled, term 0 all decoded. -/
def Dev.replaying (d : Dev) (c : Nat) : Bool :=
  let x := d.ich c
  d.cacheMode c == 2 && x.sealed_ && d.rbit (ichReg c 0) 31 && x.openB.isNone && x.work.isNone && !d.ichBusy c

/-- The slots of a replay batch: each cached sample is read from the log (R167, R174), and counts for the pool as any valid sample
does (R169). -/
def Dev.replayFills (d : Dev) (c : Nat) : List Nat → List SlotFill → Dev × List SlotFill
  | [], fs => (d, fs)
  | j :: t, fs =>
    let x := d.ich c
    match x.cached[j]? with
    | none => d.replayFills c t fs
    | some (s, a, n) =>
      let (d, bad) := d.touch a n
      let f := (d.ich c).fillFor (d.rbit (ichReg c 0) 27) fs (if bad then none else some s)
      let d := d.countFill c f
      let d := match f.sample, f.subst with | some s, false => d.poolCopy c s | _, _ => d
      d.replayFills c t (fs ++ [f])

/-- Fill the back window while slots are free (R174). The fuel is the room of the window. -/
def fillBack (c : Nat) : Nat → Dev → Dev
  | 0, d => d
  | n + 1, d =>
    let x := d.ich c
    let p := x.params
    let total := x.cached.length
    if !d.replaying c || Dp.window p ≤ x.back.length || total ≤ x.pos then d
    else match d.takeSlot (Dp.outAlloc p) (Dp.slotBytes p) with
      | none => d
      | some (a, d) =>
        let k := min (Dp.samples p) (total - x.pos)
        let js := (List.range k).map (fun i => perm (d.rn2 (ichReg c 0x24)) x.term total (x.pos + i))
        let (tag, d) := d.nextTag c
        let (d, fs) := d.replayFills c js []
        let (d, r) := d.writeBatch c a tag x.term (1 + if k < Dp.samples p then 2 else 0) fs
        let y := d.ich c
        fillBack c n (d.setIch c { y with
          pos := x.pos + k
          back := y.back ++ [{ term := x.term, slot := a, length := r.length, tag, corrupt := r.corrupt, subst := r.subst, samples := k
                               last := decide (total ≤ x.pos + k) }] })

def Dev.refill (d : Dev) (c : Nat) : Dev := fillBack c 16 (d.settle c)

/-- A swap is armed: by a command, or by AUTO_SWAP as the front window is empty (R174). -/
def Dev.swapArmed (d : Dev) (c : Nat) : Bool :=
  let x := d.ich c
  x.armed || (d.rbit (ichReg c 0) 26 && d.replaying c && x.front.isEmpty)

/-- WINDOW_SWAP (R174): an armed swap takes effect once the front window is sent and the back window is full, or holds the
term's last batch. -/
def Dev.windowSwap (d : Dev) (c : Nat) : Dev :=
  let d := d.refill c
  let x := d.ich c
  let full := x.back != [] && (Dp.window x.params ≤ x.back.length || x.cached.length ≤ x.pos)
  if d.replaying c && d.swapArmed c && x.front.isEmpty && full then
    (d.setIch c { x with front := x.back, back := [], armed := false }).refill c
  else d

/-- The current term's last batch has been sent: AUTO_TERM begins the next at once (R175). -/
def Dev.termEnd (d : Dev) (c : Nat) : Dev :=
  let x := d.ich c
  if d.rbit (ichReg c 0) 25 then (d.setIch c { x with term := x.term + 1, pos := 0, termDone := false }).refill c
  else d.setIch c { x with termDone := true }

/-- REPLAY_BATCH_SEND (R174): the front window's next batch goes out on the routes of the channel's first DECODE seat. -/
def Dev.replaySend (d : Dev) (c : Nat) : Dev :=
  let d := d.refill c
  let x := d.ich c
  match x.front, d.ichSeat c with
  | b :: rest, some s =>
    if !d.rbit (ichReg c 0) 31 then d
    else
      let d := (d.setIch c { x with front := rest }).sendBatch s
        { payload := b.slot, length := b.length, corrupt := b.corrupt, subst := b.subst, tag := some b.tag }
      if b.last && decide (rest = []) && b.term == x.term then d.termEnd c else d
  | _, _ => d

/-- A term advance at the bell (R175). The descriptors fetched before it are still decoded as term 0; the batch they leave open is
closed behind the last of them (Dev.settle). -/
def Dev.termBell (d : Dev) (c : Nat) : Dev :=
  let x := d.ich c
  if !x.advance then d
  else if d.cacheMode c = 0 then d.setIch c { x with advance := false }
  else
    let fill := d.cacheMode c == 1
    let skipped := if fill then 0 else (x.cached.length - x.pos) + (x.back.map (·.samples)).foldl (· + ·) 0
    let d := (d.setIch c { x with
        advance := false, armed := false, back := [], pos := 0, termDone := false, sealed_ := true
        sealAt := if fill then d.host.fetches else x.sealAt, term := x.term + 1 }).bump (ichReg c 0x44) skipped
    (d.wf (ichReg c 0) 29 28 2).refill c

/-- The cache header (R172). -/
def Dev.cacheHeader (d : Dev) (c : Nat) : Bytes :=
  let x := d.ich c
  leB 8 (b2n x.sealed_) ++ leB 8 x.cached.length ++ leB 8 (d.rn2 (ichReg c 0x24)) ++ leB 4 x.term ++ leB 4 (crc32c x.params).toNat
    ++ leB 8 x.logEnd

/-- What a bell does to a channel (R172, R175, R178). -/
def Dev.ichBell (d : Dev) (c : Nat) : Dev :=
  let x := d.ich c
  let d := d.setIch c { x with tickets := x.tickets.map (fun t => { t with bells := t.bells + 1 }) }
  let d := d.termBell c
  match d.alloc (Dp.cacheAlloc x.params) with
  | some a => if d.cacheMode c = 0 then d else d.mwrite a.base (d.cacheHeader c)
  | none => d

/-- Bells reach every channel in use. -/
def Dev.ichBells (d : Dev) : Dev := d.ichs.foldl (fun d e => if e.2.params = [] then d else d.ichBell e.1) d

/-- TERM_ADVANCE of the timetable (R175). -/
def Dev.armTerms (d : Dev) : Dev :=
  { d with ichs := d.ichs.map (fun (e : Nat × IchSt) => (e.1, if e.2.params = [] then e.2 else { e.2 with advance := true })) }

def Dev.armSwap (d : Dev) (c : Nat) : Dev :=
  let x := d.ich c
  if x.params = [] then d else d.setIch c { x with armed := true }

/-- A write of MEM_ICH_[c]_CMD (R180). -/
def Dev.ichCmd (d : Dev) (c v : Nat) : Dev :=
  let d := if bit v 1 then d.armSwap c else d
  let x := d.ich c
  if bit v 0 && x.params != [] then d.setIch c { x with advance := true } else d

/-! Assist tickets (R177, R178) -/

/-- The task of a ticket, if it waits in the matching store. -/
def Dev.ticketTask (d : Dev) (c : Nat) (k : Ticket) : Option Task :=
  (d.ichTasks c).find? (fun t => t.phase == .waiting && match tfind t.slots 0 with
    | some { origin := some o, .. } => o.serial == k.serial
    | _ => false)

/-- Whether a descriptor of a channel is diverted: it was fetched while the channel diverted, and no ASSIST event waits for
space (R177). -/
def Dev.diverts (d : Dev) (o : Origin) : Bool := o.div && !d.host.events.any (fun e => e.body.head? == some 6#8)

/-- Divert a descriptor: its ticket, and the ASSIST event (R177). -/
def Dev.assistEvent (d : Dev) (c : Nat) (o : Origin) (addr len arg : Nat) : Dev :=
  let x := d.ich c
  let k := x.nextTicket
  let d := d.setIch c { x with nextTicket := (k + 1) % 2 ^ 24, tickets := x.tickets ++ [{ ticket := k, serial := o.serial }] }
  (d.offer (d.rf (ichReg c 0x30) 29 16) 6 c true
    (leB 4 k ++ leB 4 o.index ++ leB 2 o.ring ++ zeros 2 ++ leB 4 len ++ leB 8 addr ++ leB 4 arg ++ zeros 20)).bump (ichReg c 0x4C)

/-- Fill slot 1 of a ticket's task; the ticket is done. -/
def Dev.answerTicket (d : Dev) (c : Nat) (k : Ticket) (t : Task) (a : Arrival) : Dev :=
  let x := d.ich c
  let d := d.setIch c { x with tickets := x.tickets.filter (fun e => e.ticket != k.ticket) }
  match d.ichRing c with
  | some m => ((d.accrue m.quad).updTask m.quad t.uid (fun t => t.fill a)).promote m.quad
  | none => d

/-- ASSIST_TIMEOUT (R178): no result for TMO bells. -/
def Dev.assistTimeout (d : Dev) (c ticket : Nat) : Dev :=
  match (d.ich c).tickets.find? (fun k => k.ticket == ticket) with
  | none => d
  | some k =>
    if k.bells < max 1 (d.rf (ichReg c 0x30) 7 0) then d
    else match d.ticketTask c k with
      | none => d
      | some t =>
        let m := (d.ichRing c).getD default
        let pkt := mkPkt m.quad 1 0 0xFFFF m.lane 2 1 0 t.tag.toNat 0 0 t.arg
        (d.answerTicket c k t { pkt, sender := 0x8000 }).bump (ichReg c 0x50)

/-! Seating and registers (R176, R180) -/

/-- The samples that a sealed cache holds: as the model wrote them where the index still says so, else as its bytes read (R171,
R176). -/
def Dev.cacheRead (d : Dev) (p : Bytes) (a : Alloc) (old : List (Sample × Nat × Nat)) : List (Sample × Nat × Nat) :=
  (List.range (d.mnum (a.base + 8) 8)).map (fun i =>
    let e := d.mnum (a.base + 4096 + 8 * i) 8
    let addr := a.base + logAt p + bits e 39 0 * 64
    let n := bits e 63 40
    match old[i]? with
    | some (s, b, k) => if b = addr ∧ k = n then (s, b, k) else (Config.logCells p (d.mread addr n), addr, n)
    | none => (Config.logCells p (d.mread addr n), addr, n))

/-- Seat a channel from its parameter block (R180); `kept` tells that its cache allocation was kept with PRESERVE, so that REPLAY
may resume (R176). -/
def Dev.seatIch (d : Dev) (p : Bytes) (quad : Nat) (kept : Bool) : Dev :=
  let c := fld p 0 1
  let f := Dp.flags p
  let mode := bits f 2 1
  let hdr := match d.alloc (Dp.cacheAlloc p) with | some a => d.mread a.base 40 | none => []
  let resume := mode == 2 && kept && bit (fld hdr 0 1) 0 && fld hdr 16 8 == Dp.seed p && fld hdr 28 4 == (crc32c p).toNat
  let mode' := if mode = 2 ∧ !resume then 1 else mode
  let x : IchSt := { params := p, quad, nextTicket := (d.ich c).nextTicket }
  let x := match if resume then d.alloc (Dp.cacheAlloc p) else none with
    | some a => { x with cached := d.cacheRead p a (tget ([], 0) d.caches a.id).1, logEnd := fld hdr 32 8, sealed_ := true, term := fld hdr 24 4 + 1 }
    | none => x
  let d := { (d.setIch c x) with caches := tdel d.caches (Dp.cacheAlloc p) }
  let d := (d.wn2 (ichReg c 8) (fld p 40 6)).wn2 (ichReg c 0x24) (Dp.seed p)
  let d := d.wn (ichReg c 0) (2 ^ 31 + at_ mode' 28 + at_ (b2n (bit f 0)) 27 + at_ (b2n (bit f 3)) 26 + at_ (b2n (bit f 4)) 25
    + at_ (b2n (bit f 5)) 24)
  let d := if mode = 2 ∧ !resume then d.wbit (ichReg c 4) 7 true else d
  match d.alloc (Dp.cacheAlloc p) with
  | some a => if mode = 0 then d else d.mwrite a.base (padTo 4096 (d.cacheHeader c))
  | none => d

/-- A channel is left: what its cache holds stays with the cache's allocation (R72, R176). -/
def Dev.leaveIch (d : Dev) (c : Nat) : Dev :=
  let x := d.ich c
  let d := if Dp.cacheAlloc x.params = 0 then d else { d with caches := tput d.caches (Dp.cacheAlloc x.params) (x.cached, x.logEnd) }
  if (tfind d.ichs c).isSome then d.setIch c { nextTicket := x.nextTicket } else d

/-- Registers of a channel that show its state; none for a register that is held as written. -/
def Dev.ichView (d : Dev) (c off : Nat) : Option Nat :=
  let x := d.ich c
  match off with
  | 0x04 => some (d.rn (ichReg c 4) + b2n x.sealed_ + 4 * b2n x.termDone + 8 * b2n (d.swapArmed c) + 16 * b2n x.diverting
      + 32 * b2n x.resync)
  | 0x10 => some x.term
  | 0x14 => some x.cached.length
  | 0x18 => some (x.cached.length / 2 ^ 32)
  | 0x1C => some x.pos
  | 0x20 => some (x.pos / 2 ^ 32)
  | 0x34 => some (d.ichDepth c)
  | _ => none

end Sys2Proof.Machine
end

