-- ==== Sys2Proof/Machine/Params.lean ====
section
/-! DEFINITION. Checks of the roles' parameter blocks, for which a Plat is refused (R54, R69 step 5): R38, R39, R171, R174,
R179, R208 to R240, R273, R287 to R305, R312, R313. -/
namespace Sys2Proof.Machine

/-- What a parameter-block check may look at beside the block: the entry's seat, the allocation records, the EN bits of
the emit streams as they will stand (R38), the field-book columns, the seating, the ring map. -/
structure ParamCtx where
  seat : Nat
  allocs : List Alloc
  emitEn : Nat → Bool
  cols : List FbEntry
  seating : List SeatEntry
  maps : List RingMap

def ParamCtx.rec? (c : ParamCtx) (id : Nat) : Option Alloc := c.allocs.find? (fun a => a.id == id)
def ParamCtx.has (c : ParamCtx) (id : Nat) : Bool := (c.rec? id).isSome
def ParamCtx.dram (c : ParamCtx) (id : Nat) : Bool := match c.rec? id with | some a => a.kind == 0 | none => false
/-- A SLATE or BOARD record that carries SHARED. -/
def ParamCtx.shared (c : ParamCtx) (id : Nat) : Bool :=
  match c.rec? id with | some a => (a.kind == 1 || a.kind == 2) && bit a.flags 3 | none => false
/-- A DRAM record that carries SHARED. -/
def ParamCtx.sharedDram (c : ParamCtx) (id : Nat) : Bool :=
  match c.rec? id with | some a => a.kind == 0 && bit a.flags 3 | none => false
def ParamCtx.sizeOf (c : ParamCtx) (id : Nat) : Nat := match c.rec? id with | some a => a.size | none => 0

/-- DESC_INVALID unless a check holds. -/
def must (b : Bool) : Option Status := if b then none else some .descInvalid

/-! Column roles (R208 to R240) -/

/-- Operation codes that a role accepts (R209). -/
def roleOps (role : Nat) : List Nat :=
  match role with
  | 2 => [1, 2, 3, 4, 5, 0x32]
  | 3 => [0x10]
  | 4 => [0x10, 0x20, 0x21]
  | 5 => [0x30, 0x31, 0x32]
  | 6 => [0x40, 0x42]
  | 7 => [0x41, 0x42]
  | 8 => [0x60, 0x42]
  | 14 => [0x50]
  | _ => []

/-- An inline table of n bytes at an offset lies within the block, behind its fixed parts. -/
def inlineOk (p : Bytes) (ofs : Int) (n : Nat) : Bool := decide (0 ≤ ofs) && ofs.toNat % 8 == 0 && ofs.toNat + n ≤ p.length

/-- A table of edges is strictly ascending (R223). -/
def edgesRise (l : List Int) : Bool := (l.zip l.tail).all (fun x => decide (x.1 < x.2))

/-- An unsigned or any integer type holds a value. -/
def typeHolds (t : Nat) (v : Int) : Bool := isInt t && decide (v ≤ typeHi t)

/-- Field-book exponent of a column, and its entry. -/
def ParamCtx.col (c : ParamCtx) (n : Nat) : Option FbEntry := c.cols.find? (fun e => e.column == n)

/-- The fields of one operation entry (R208, R215 to R240). -/
def colOpOk (c : ParamCtx) (p : Bytes) (o : ColOp) : Bool :=
  let ff := 0xFFFF
  let noB := o.inB == ff
  let noOut := o.out == ff
  let plain := o.outType == 0
  let noF := o.flags == 0
  let noW := o.workExp == 0
  let noE := o.outExp == 0
  let z0 := o.p0 == 0
  let z1 := o.p1 == 0
  let z2 := o.p2 == 0
  match o.op with
  | 0x01 => o.mode ≤ 7 && o.outType == 9 && o.flags ≤ 1 && noE && z0 && z2 && (o.mode < 6 || (noB && noW)) && (z1 || (o.mode < 6 && noB))
  | 0x02 => o.mode ≤ 1 && noB && o.outType == 9 && o.flags ≤ 1 && noE && z0
  | 0x03 => o.mode == 0 && noB && o.outType == 9 && o.flags ≤ 1 && noE && c.shared (bits o.p0 30 0) && decide (0 ≤ o.p1)
      && (if bit o.p0 31 then decide (12 ≤ o.p2) && decide (o.p2 ≤ 30) else z2)
  | 0x04 => o.mode ≤ 4 && (noB == (o.mode == 4)) && o.outType == 9 && o.flags ≤ 1 && noW && noE && z0 && z1 && z2
  | 0x05 => o.mode ≤ 1 && noB && noOut && plain && o.flags ≤ 1 && noW && noE && z0 && z1 && z2
  | 0x10 =>
    let n := o.p1
    o.mode ≤ 1 && noB && noF && noE && z0
      && (if o.mode = 0 then o.outType == 7 && z1 && z2
          else if n = 0 then o.outType == 8
          else decide (1 ≤ n) && decide (n ≤ 2 ^ 48) && isUnsigned o.outType && typeHolds o.outType (n - 1))
  | 0x20 => o.mode == 0 && noB && noF && noE && (6 ≤ o.outType && o.outType ≤ 8) && 1 ≤ o.p0 && o.p0 ≤ 256
      && inlineOk p o.p1 (8 * o.p0) && edgesRise (edges p o.p1.toNat o.p0) && z2
  | 0x21 => o.mode == 0 && noB && noF && noE && 1 ≤ o.p0 && decide (0 < o.p2) && typeHolds o.outType ((o.p0 : Int) - 1)
  | 0x30 => o.mode ≤ 3 && noB && 1 ≤ o.outType && o.outType ≤ 3 && o.flags &&& 1 == 0 && o.flags ≤ 2 && decide (-32 ≤ o.outExp)
      && decide (o.outExp ≤ 31) && z2
      && (match o.mode with
          | 0 => z0 && z1
          | 1 => o.p0 < 2 ^ 16
          | 2 => z0 && decide (0 ≤ o.p1) && decide (o.p1 ≤ 2 ^ 32)
          | _ => z1 && o.p0 < 2 ^ 13 && (match c.col o.p0 with | some e => decide (e.col.exp = o.workExp) | none => false))
  | 0x31 => o.mode == 0 && noB && 1 ≤ o.outType && o.outType ≤ 3 && o.flags &&& 1 == 0 && o.flags ≤ 2 && decide (-32 ≤ o.outExp)
      && decide (o.outExp ≤ 31) && 1 ≤ o.p0 && o.p0 ≤ 4096 && z1 && z2
  | 0x32 => o.mode == 0 && noB && isInt o.outType && noF && noE && z0 && decide (o.p1 ≤ o.p2)
  | 0x40 => o.mode ≤ 1 && noOut && plain && noF && noE && z2 && bits o.p0 15 7 == 0 && o.p0 < 2 ^ 24 && 1 ≤ bits o.p0 6 0
      && bits o.p0 6 0 ≤ 64 && inlineOk p o.p1 (4 * bits o.p0 6 0)
      && (List.range (bits o.p0 6 0)).all (fun i => c.shared (fld p (o.p1.toNat + 4 * i) 4))
  | 0x41 => o.mode < 16 && bits o.mode 1 0 ≤ 2 && plain && noF && noE && z2 && o.p0 < 2 ^ 24
      && (if bits o.mode 1 0 = 2 then !noB else noB && z1) && (if 1 < bits o.mode 3 2 then bits o.p0 15 0 == 0 else 1 ≤ bits o.p0 15 0)
      && (bits o.mode 1 0 != 1 || bits o.p0 23 16 == 0)
      && (bits o.mode 1 0 == 1 || c.seating.any (fun e => e.role == 6
            && (colOps e.params).any (fun b => b.op == 0x40 && bits b.p0 23 16 == bits o.p0 23 16)
            && slice e.params 24 8 == slice p 24 8 && slice e.params 12 4 == slice p 12 4))
  | 0x42 => o.mode == 0 && noB && plain && noF && noW && noE && z0 && z1 && z2
  | 0x50 =>
    let e := bits o.p0 24 16
    let hist := bit o.p0 13
    o.mode == 0 && noB && noOut && plain && noF && noE && z2 && o.p0 < 2 ^ 25 && !bit o.p0 15
      && (if hist then 1 ≤ e && e ≤ 256 && inlineOk p o.p1 (8 * e) && edgesRise (edges p o.p1.toNat e) else e == 0 && z1)
      && (match c.col (bits o.p0 12 0) with
          | some x => decide (x.col.exp = o.workExp) && (denseSeat c.seat) == some (1224 + x.col.unit)
              && (!(hist || bit o.p0 14) || (c.has x.col.extAlloc && 6 * (extParts o.p0).2.2 ≤ c.sizeOf x.col.extAlloc))
          | none => false)
  | 0x60 =>
    o.mode == 0 && noOut && plain && noF && noE && 1 ≤ bits o.p0 22 0 && bits o.p0 22 0 ≤ 2 ^ 22 && !bit o.p0 23 && o.p0 < 2 ^ 27
      && decide (1 ≤ o.p2) && decide (o.p2 ≤ 2 ^ 32)
  | _ => false

/-- A row-map entry (R211). -/
def rowMapOk (e : Bytes) : Bool :=
  let t := fld e 2 1
  3 ≤ fld e 0 2 && (isInt t || t == 0xD) && zeroAt e 3 1 && (if t = 0xD then fld e 6 2 != 0 else fld e 6 2 == 0)

/-- Least width of a column carried by a SEQ entry: that of the row map for a stream block (R211), else one byte, as the block
does not say what columns a batch holds (log entry 99). -/
def carriedWidth (p : Bytes) (col : Nat) : Nat :=
  if fld p 2 1 = 0 then 1
  else if col < 2 then 8
  else if col = 2 then 2
  else ((List.range (fld p 3 1)).findSome? (fun i =>
    let e := slice p (32 + 32 * fld p 0 2 + 8 * i) 8
    if fld e 0 2 = col then some (if fld e 2 1 = 0xD then fld e 6 2 else typeBytes (fld e 2 1)) else none)).getD 1

/-- STATE_ALLOC holds the histories of a SEQ entry (R240). -/
def seqFits (c : ParamCtx) (p : Bytes) (e : ColOp × List ColOp) : Bool :=
  let rb := upTo ((e.2.map (fun o => carriedWidth p o.inA)).foldl (· + ·) 0) 8
  64 + e.1.p2.toNat * (32 + bits e.1.p0 22 0 * (16 + rb)) ≤ c.sizeOf (fld p 16 4)

/-- JOIN_IDs of a block's BUILD entries. -/
def buildIds (p : Bytes) : List Nat := (codeOps 0x40 (colOps p)).map (fun e => joinId e.1)

def columnOk (c : ParamCtx) (role : Nat) (p : Bytes) : Bool :=
  let n := fld p 0 2
  let m := fld p 3 1
  let ops := colOps p
  1 ≤ n && n ≤ 64 && fld p 2 1 ≤ 1 && m ≤ 16 && (fld p 2 1 == 1 || m == 0) && 32 + 32 * n + 8 * m ≤ p.length
    && fld p 8 4 % 64 == 0 && zeroAt p 20 4 && (role == 14 || role == 6 || c.has (fld p 4 4))
    && (fld p 12 4 == 0 || c.dram (fld p 12 4)) && (fld p 16 4 == 0 || c.dram (fld p 16 4))
    && (List.range m).all (fun i => rowMapOk (slice p (32 + 32 * n + 8 * i) 8))
    && ops.all (fun o => (roleOps role).contains o.op && colOpOk c p o)
    && (role != 8 || (codeOps 0x60 ops).all (seqFits c p))
    && (role != 6 || (decide (buildIds p).Nodup && c.seating.all (fun e => e.role != 6 || e.params == p
          || (buildIds e.params).all (fun i => !(buildIds p).contains i))))

/-! ENCODE (R38, R39) -/

/-- A field entry; for INPUT 1 its source lies within the RB carried bytes of a position record. -/
def encFieldOk (input rb : Nat) (raw : Bytes) (f : EncField) : Bool :=
  zeroAt raw 1 1 && zeroAt raw 12 4
    && (match f.kind with
        | 1 => input == 0 || (f.elem == 0 && f.src + f.bytes ≤ rb)
        | 2 => input == 0 && f.size % 2 == 0
        | 3 => f.size == 8 && f.elem == 0
        | 4 => (f.size == 2 || f.size == 4) && f.elem == 0
        | 5 => f.size == 2 && (if input = 0 then f.elem == 0 else f.elem ≤ 7 && f.src < rb)
        | 6 => (f.size == 4 || f.size == 8) && f.elem == 0
        | _ => false)

def encodeOk (c : ParamCtx) (p : Bytes) : Bool :=
  let n := fld p 0 2
  let input := fld p 3 1
  let cf := fld p 4 1
  let comp := bit cf 0
  let tb := fld p 16 4
  let fs := encFields p
  1 ≤ n && n ≤ 256 && 32 + 16 * n ≤ p.length && fld p 2 1 < 64 && input ≤ 1 && cf < 32
    && (if comp then 1 ≤ bits cf 4 1 && bits cf 4 1 ≤ 6 && 1 ≤ fld p 5 1 && fld p 5 1 ≤ 9 && c.has (fld p 20 4)
        else cf == 0 && fld p 5 1 == 0 && fld p 20 4 == 0)
    && (input == 0 || fld p 6 2 == 0xFFFF) && c.has (fld p 8 4) && 16 ≤ tb && tb ≤ 65536 && tb % 16 == 0
    && fld p 12 4 % 64 == 0 && 64 + tb ≤ fld p 12 4 && (input == 1 || fld p 24 4 == 0) && zeroAt p 28 4 && c.emitEn (fld p 2 1)
    && (fs.zip (List.range n)).all (fun x => encFieldOk input (fld p 24 4) (slice p (32 + 16 * x.2) 16) x.1 && x.1.dst + x.1.bytes ≤ tb
        && (fs.take x.2).all (fun y => decide (y.dst + y.bytes ≤ x.1.dst) || decide (x.1.dst + x.1.bytes ≤ y.dst)))

/-! DECODE (R159, R171, R174, R179) -/

def decColOk (format : Nat) (raw : Bytes) : Bool :=
  let t := fld raw 2 1
  let out := fld raw 3 1
  let depth := fld raw 4 1
  let ml := fld raw 8 4
  let mb := fld raw 12 4
  1 ≤ t && t ≤ 0xD && (if t = 0xA ∨ t = 0xB then 1 ≤ out && out ≤ 3 else out == 0) && depth ≤ (if format = 0 then 1 else 4)
    && zeroAt raw 5 3 && (if depth = 0 then ml == 0 else 1 ≤ ml && ml ≤ 65536)
    && (if t = 0xC then 1 ≤ mb && mb ≤ 1048576 else if t = 0xD then 1 ≤ mb else mb == 0)

/-- Bytes of the cache allocations of all channels. -/
def ParamCtx.cacheBytes (c : ParamCtx) : Nat :=
  let ids := dedup ((c.seating.filter (fun e => e.role == 1 && bits (Dp.flags e.params) 2 1 != 0)).map (fun e => Dp.cacheAlloc e.params))
  (ids.map c.sizeOf).foldl (· + ·) 0

def decodeBlock (c : ParamCtx) (p : Bytes) : Option Status :=
  let f := Dp.flags p
  let mode := bits f 2 1
  let n := Dp.cols p
  let quad := (denseSeat c.seat).bind seatQuad
  must (fld p 0 1 < 16 && fld p 1 1 ≤ 1 && f < 64 && mode ≤ 2 && 1 ≤ Dp.window p && Dp.window p ≤ 16 && 1 ≤ Dp.samples p
      && Dp.samples p ≤ 65536 && 1 ≤ n && n ≤ 1024 && Dp.poolN p ≤ 4096 && (!bit f 0 || 1 ≤ Dp.poolN p) && 1 ≤ Dp.stride p
      && Dp.stride p ≤ 65536 && c.has (Dp.outAlloc p) && (Dp.poolAlloc p == 0 || c.has (Dp.poolAlloc p))
      && (if mode = 0 then Dp.cacheAlloc p == 0 else c.dram (Dp.cacheAlloc p)) && Dp.slotBytes p % 64 == 0 && Dp.slotBytes p != 0
      && zeroAt p 46 2 && Dp.indexCap p ≤ 2 ^ 40 && zeroAt p 56 8 && 64 + 16 * n ≤ p.length
      && (List.range n).all (fun i => decColOk (fld p 1 1) (slice p (64 + 16 * i) 16))
      && c.seating.all (fun e => e.role != 1 || fld e.params 0 1 != fld p 0 1 || (e.params == p && (denseSeat e.seat).bind seatQuad == quad))
      && c.maps.all (fun m => m.channel != fld p 0 1 || (m.role == 1 && some m.quad == quad))
      && (mode != 2 || 2 * Dp.window p ≤ c.sizeOf (Dp.outAlloc p) / Dp.slotBytes p))
    <|> (if 3584 * 2 ^ 30 < c.cacheBytes then some .lenRange else none)

/-! MATRIX and SELECT (R264, R273, R312, R313) -/

def matrixOk (p : Bytes) : Bool :=
  let n := fld p 0 2
  let m := fld p 2 2
  1 ≤ n && n ≤ 256 && 1 ≤ m && m ≤ 256 && zeroAt p 4 12 && 16 + 32 * (n + m) ≤ p.length
    && (List.range n).all (fun i =>
        let e := slice p (16 + 32 * i) 32
        (fld e 8 1 ≤ 3 || fld e 8 1 == 0xFF) && (fld e 9 1 ≤ 3 || fld e 9 1 == 0xFF) && decide (-64 ≤ sx 8 (fld e 10 1))
          && decide (sx 8 (fld e 10 1) ≤ 63) && decide (-32 ≤ sx 8 (fld e 11 1)) && decide (sx 8 (fld e 11 1) ≤ 31)
          && fld e 12 2 < m && zeroAt e 14 2 && 1 ≤ fld e 16 4 && fld e 16 4 ≤ 131072 && 1 ≤ fld e 20 4 && fld e 20 4 ≤ 131072
          && 1 ≤ fld e 24 4 && fld e 24 4 ≤ 16777216 && zeroAt e 28 4)
    && (List.range m).all (fun i =>
        let e := slice p (16 + 32 * (n + i)) 32
        fld e 4 1 < 8 && fld e 5 1 < 8 && fld e 6 2 ≤ 1 && (List.range 5).all (fun k => fld e (8 + 4 * k) 4 < 2 ^ 31)
          && fld e 28 1 < 64 && fld e 29 1 < 64 && zeroAt e 30 2)

def selectOk (c : ParamCtx) (p : Bytes) : Bool :=
  let n := fld p 0 2
  1 ≤ n && n ≤ 16 && zeroAt p 2 2 && c.has (fld p 4 4) && fld p 8 4 % 64 == 0 && zeroAt p 12 4 && 16 + 48 * n ≤ p.length
    && (List.range n).all (fun i =>
        let e := slice p (16 + 48 * i) 48
        let op := fld e 0 1
        let k := fld e 6 1
        let mo := fld e 12 4
        let batch := fld e 2 2 != 0xFFFF
        let handle := fld e 8 4 != 0
        let pieces := if handle then 1 ≤ fld e 24 4 && fld e 24 4 ≤ 65536 && 1 ≤ fld e 28 4 && fld e 28 4 ≤ fld e 24 4 else zeroAt e 24 8
        fld e 1 1 < 8 && k ≤ 64 && zeroAt e 40 8 && pieces && zeroAt e 11 1
          && (match op with
              | 0x70 => mo == 0 && zeroAt e 16 8
              | 0x71 => k == 0 && 1 ≤ mo && mo ≤ 65536
              | 0x72 => (mo == 0 || (k == 0 && mo ≤ 65536)) && zeroAt e 16 8
              | _ => false)
          && (if op = 0x72 then !batch && fld e 4 2 == 0xFFFF && !handle
              else batch != handle && (!batch || (!bit (fld e 1 1) 1 && fld e 4 2 != 0xFFFF)) && (!handle || fld e 4 2 == 0xFFFF)))

/-! GATHER and SCATTER (R287 to R305) -/

def tableOk (c : ParamCtx) (p : Bytes) (i : Nat) : Bool :=
  let e := slice p (32 + 64 * i) 64
  let t := embTable p i
  let s := fld e 30 2
  (t.etype == 1 || t.etype == 2 || t.etype == 0x10) && fld e 3 1 < 4 && 8 ≤ t.dim && t.dim ≤ 4096 && (t.etype != 0x10 || t.dim % 2 == 0)
    && 1 ≤ t.lead && bits (fld e 7 1) 3 3 == 0 && 1 ≤ t.lag && 1 ≤ t.rows && t.rows ≤ 2 ^ 40
    && (if t.sharded then t.slots ≤ 2 ^ 40 && 4 ≤ t.dirLog && t.dirLog ≤ 40 && 1 ≤ s && s ≤ 2048 && fld e 32 4 + 2 * s ≤ p.length
          && t.stations.all (· < 2048)
        else t.slots == t.rows && t.dirLog == 0 && s == 1 && fld e 32 4 == 0)
    && decide (-64 ≤ t.updExp) && decide (t.updExp ≤ 63) && c.dram t.rowAlloc && c.sharedDram t.counterAlloc
    && 1 ≤ t.hotCap && t.hotCap ≤ 2 ^ 24 && (c.has t.hotAlloc || (t.hotAlloc == 0 && !t.hot)) && (t.updAlloc == 0 || c.has t.updAlloc)
    && bits (fld e 62 1) 7 3 == 0 && zeroAt e 63 1

/-- Areas that are too small for what they must hold (R288, R299, R305). -/
def tableFits (c : ParamCtx) (t : EmbTable) : Bool :=
  t.bytes ≤ c.sizeOf t.rowAlloc && (!t.hot || 16 * t.slots + 2 * (64 + 8 * t.hotCap) ≤ c.sizeOf t.hotAlloc)
    && (t.updAlloc == 0 || 4 * t.updCap * (16 + 8 * t.dim) ≤ c.sizeOf t.updAlloc)

def poolOk (p : Bytes) (i : Nat) : Bool :=
  let e := slice p (32 + 64 * fld p 0 2 + 32 * i) 32
  fld e 0 1 < fld p 0 2 && fld e 1 1 ≤ 2 && (if fld e 1 1 = 0 then fld e 4 2 != 0xFFFF else fld e 4 2 == 0xFFFF && zeroAt e 12 2)
    && 1 ≤ fld e 10 1 && fld e 10 1 ≤ 3 && decide (-64 ≤ sx 8 (fld e 11 1)) && decide (sx 8 (fld e 11 1) ≤ 63) && zeroAt e 14 18

/-- The 64-byte table entries of a block: those of one TABLE_ID are byte-identical on every seat (R287). -/
def tableEntries (p : Bytes) : List Bytes := (List.range (fld p 0 2)).map (fun i => slice p (32 + 64 * i) 64)

def embedBlock (c : ParamCtx) (role : Nat) (p : Bytes) : Option Status :=
  let n := fld p 0 2
  let m := fld p 2 2
  let ts := embTables p
  must (1 ≤ n && n ≤ 256 && (if role = 12 then 1 ≤ m && m ≤ 64 && c.has (fld p 4 4) else m == 0) && fld p 8 4 % 64 == 0
      && zeroAt p 12 20 && 32 + 64 * n + 32 * m ≤ p.length && (List.range n).all (tableOk c p) && (List.range m).all (poolOk p)
      && ts.all (fun t => t.lead == (ts.headD default).lead)
      && (tableEntries p).all (fun t => c.seating.all (fun e => !(e.role == 12 || e.role == 13)
          || (tableEntries e.params).all (fun u => fld u 0 2 != fld t 0 2 || u == t))))
    <|> (if ts.all (tableFits c) then none else some .lenRange)

/-- A role's parameter block obeys its chapter (R54): the status it is refused with, if it does not. -/
def paramsOk (c : ParamCtx) (role : Nat) (p : Bytes) : Option Status :=
  match role with
  | 0 => none
  | 1 => decodeBlock c p
  | 9 => must (matrixOk p)
  | 10 => must (selectOk c p)
  | 11 => must (encodeOk c p)
  | 12 => embedBlock c role p
  | 13 => embedBlock c role p
  | 15 => none
  | _ => must (columnOk c role p)

end Sys2Proof.Machine
end

