-- ==== Sys2Proof/Machine/Tutor.lean ====
section
/-! DEFINITION. Tutors: registers, faults, loops, the words of the drill instructions and what those that touch only
registers do (R104, R106, R110, R113 to R115). -/
namespace Sys2Proof.Machine

/-! Instruction words (R113) -/

def encF1 (op : Nat) (rd ra rb : Greg) : Nat := op * 2 ^ 26 + rd.val * 2 ^ 21 + ra.val * 2 ^ 16 + rb.val * 2 ^ 11
def encF2 (op : Nat) (rd ra : Greg) (imm : BitVec 16) : Nat := op * 2 ^ 26 + rd.val * 2 ^ 21 + ra.val * 2 ^ 16 + imm.toNat
def encF4 (op : Nat) (off : BitVec 26) : Nat := op * 2 ^ 26 + off.toNat
def encF5 (op : Nat) (r rt : Greg) (queue : Byte) (st : Greg) : Nat :=
  op * 2 ^ 26 + r.val * 2 ^ 21 + rt.val * 2 ^ 16 + queue.toNat * 2 ^ 8 + st.val
def encF6 (op : Nat) (rd ra : Greg) (imm : BitVec 4) : Nat := op * 2 ^ 26 + rd.val * 2 ^ 21 + ra.val * 2 ^ 16 + imm.toNat

/-- Fields of a word that an instruction does not use are ignored: the bits that count, by use. -/
def maskAll : Nat := 0xFFFFFFFF
/-- SEND: no status register. -/
def maskSend : Nat := 0xFFFFFFE0
/-- SIG and SETTMR name no rd; SETTMR and WAIT no imm4; RDSTEP no ra; FENCE and HALT nothing. -/
def maskSig : Nat := 0xFC1FFFFF
def maskSet : Nat := 0xFC1FFFF0
def maskWait : Nat := 0xFFFFFFF0
def maskRd : Nat := 0xFFE0FFFF
def maskOp : Nat := 0xFC00FFF0

/-- Whether a word is an instruction: an assigned opcode with its reserved fields zero (R110, R113, R114). -/
def legalWord (w : Nat) : Bool :=
  let op := bits w 31 26
  let rd := bits w 25 21
  let ra := bits w 20 16
  let rb := bits w 15 11
  if op ≤ 0x11 then
    bits w 10 0 == 0
      && (if op = 0x0D then rb == 0 else if op = 0x10 then rb == 0 && rd % 2 == 0 && ra % 2 == 0
          else if op = 0x11 then ra % 2 == 0 else true)
  else if 0x14 ≤ op ∧ op ≤ 0x1F then
    if op = 0x17 then bits w 15 5 == 0 else if op = 0x1A then ra == 0 else true
  else if 0x20 ≤ op ∧ op ≤ 0x25 then true
  else if op = 0x26 then ra == 0 && 1 ≤ bits w 15 0 && bits w 15 0 ≤ 4095
  else if op = 0x28 ∨ op = 0x29 then true
  else if 0x30 ≤ op ∧ op ≤ 0x34 then bits w 7 5 == 0 && (op ≤ 0x31 || ra == 0)
  else if 0x38 ≤ op ∧ op ≤ 0x3D then bits w 15 4 == 0
  else false

/-! Registers and flow -/

def TutorSt.g (x : TutorSt) (r : Nat) : Word := if r = 0 then 0 else tget 0 x.regs r
/-- g0 discards writes (R104). -/
def TutorSt.setG (x : TutorSt) (r : Nat) (v : Word) : TutorSt := if r = 0 then x else { x with regs := tput x.regs r v }

/-- End of the instruction at an address: a loop that ends there runs again or ends (R115). -/
def loopEnd (at_ : Nat) : List Loop → List Loop × Nat
  | [] => ([], at_ + 4)
  | l :: outer =>
    if l.last = at_ then
      if 1 < l.left then ({ l with left := l.left - 1 } :: outer, l.first) else loopEnd at_ outer
    else (l :: outer, at_ + 4)

/-- Go on after the instruction at an address. -/
def TutorSt.next (x : TutorSt) (at_ : Nat) : TutorSt :=
  let r := loopEnd at_ x.loops
  { x with loops := r.1, pc := BitVec.ofNat 32 r.2 }

/-- A taken branch or jump ends the loops whose body it leaves (R115). -/
def TutorSt.jump (x : TutorSt) (aim : Word) : TutorSt :=
  let inside (l : Loop) : Bool := l.first ≤ aim.toNat && aim.toNat ≤ l.last
  let loops := match x.loops with
    | [] => []
    | l :: outer => if inside l then l :: outer else outer.filter inside
  { x with loops, pc := aim }

/-- Fault source, unit and detail of a tutor (R396, R399). -/
def tutorSource (t : Nat) : Nat × Nat :=
  if t < 1152 then (200 + t / 16, tileId t)
  else if t < 1224 then (344 + (t - 1152), clusterId (t - 1152))
  else if t < 1232 then (72 + (t - 1224), t - 1224)
  else (96 + (t - 1232), t - 1232)

/-- A tutor fault: it halts, its code and the instruction are recorded, its source is raised (R110). -/
def Dev.tutorFault (d : Dev) (t code : Nat) : Dev :=
  let x := d.tutor t
  let d := d.setTutor t { x with mode := .faulted, fault := code, faultPc := x.pc }
  let d := d.wbit (tutorRegs t) 0 false
  let u := tutorSource t
  d.fault u.1 u.2 code

/-- Instructions a tutor may execute without waiting (R110, R111). -/
def Dev.budget (d : Dev) (t : Nat) : Nat := max 1 (d.rf (tutorRegs t + 0xC) 15 0) * 256

/-- The word a tutor is about to execute. -/
def TutorSt.word (x : TutorSt) : Nat := (tget 0 x.drill (x.pc.toNat / 4)).toNat

/-- One instruction of a tutor. It is executed when the tutor runs and the word at its pc is this instruction; a fetch
outside the drill store, a word that is no instruction and a spent budget fault instead (R110); the word being another
instruction, this one is not executed. -/
def Dev.drill (d : Dev) (t mask enc : Nat) (f : Dev → Dev) : Dev :=
  let x := d.tutor t
  if x.mode ≠ .running then d
  else if d.budget t < x.spent then d.tutorFault t 5
  else if 16384 ≤ x.pc.toNat then d.tutorFault t 3
  else if x.pc.toNat % 4 ≠ 0 then d.tutorFault t 2
  else if !legalWord x.word then d.tutorFault t 1
  else if Nat.land x.word mask = Nat.land enc mask then
    f (d.setTutor t { x with spent := x.spent + 1 })
  else d

/-- An instruction that writes one register and goes on. -/
def Dev.put (d : Dev) (t : Nat) (rd : Greg) (v : TutorSt → Word) : Dev :=
  let x := d.tutor t
  d.setTutor t ((x.setG rd.val (v x)).next x.pc.toNat)

/-- A three-register instruction. -/
def Dev.alu (d : Dev) (op t : Nat) (rd ra rb : Greg) (f : Word → Word → Word) : Dev :=
  d.drill t maskAll (encF1 op rd ra rb) (fun d => d.put t rd (fun x => f (x.g ra.val) (x.g rb.val)))

/-- An instruction on a register and an immediate. -/
def Dev.alui (d : Dev) (op t : Nat) (rd ra : Greg) (imm : BitVec 16) (f : Word → Word) : Dev :=
  d.drill t maskAll (encF2 op rd ra imm) (fun d => d.put t rd (fun x => f (x.g ra.val)))

/-- Address of an instruction's own address plus an offset in instructions (R114). -/
def branchTo (pc : Word) (off : Int) : Word := pc + BitVec.ofInt 32 (off * 4)

/-- A conditional branch. -/
def Dev.branch (d : Dev) (op t : Nat) (ra rb : Greg) (off : BitVec 16) (c : Word → Word → Bool) : Dev :=
  d.drill t maskAll (encF2 op ra rb off) (fun d =>
    let x := d.tutor t
    d.setTutor t (if c (x.g ra.val) (x.g rb.val) then x.jump (branchTo x.pc off.toInt) else x.next x.pc.toNat))

/-- Leading zeros of a word. -/
def clz32 (w : Word) : Word := if w = 0 then 32 else BitVec.ofNat 32 (31 - Nat.log2 w.toNat)

/-- A register pair, the even register low. -/
def TutorSt.pair (x : TutorSt) (r : Nat) : BitVec 64 := x.g (r + 1) ++ x.g r

/-- Advance a raw CRC-32C state over the bytes of a word, low byte first (R114). -/
def crcWord (c w : Word) : Word := (leB 4 w.toNat).foldl crcByte c

/-- LOOP (R115). -/
def Dev.loop (d : Dev) (t : Nat) (ra : Greg) (off : BitVec 16) : Dev :=
  d.drill t maskAll (encF2 0x26 ra 0 off) (fun d =>
    let x := d.tutor t
    let pc := x.pc.toNat
    let last := pc + off.toNat * 4
    if 2 ≤ x.loops.length ∨ 16384 ≤ last then d.tutorFault t 4
    else
      let n := (x.g ra.val).toNat % 65536
      if n = 0 then d.setTutor t (x.next last)
      else d.setTutor t { x with loops := { first := pc + 4, last, left := n } :: x.loops, pc := x.pc + 4 })

/-- JALR: rd = PC + 4, PC = ra + imm; a misaligned target faults with ALIGN. -/
def Dev.jalr (d : Dev) (t : Nat) (rd ra : Greg) (imm : BitVec 16) : Dev :=
  d.drill t maskAll (encF2 0x1F rd ra imm) (fun d =>
    let x := d.tutor t
    let aim := x.g ra.val + imm.signExtend 32
    if aim.toNat % 4 ≠ 0 then d.tutorFault t 2
    else d.setTutor t ((x.setG rd.val (x.pc + 4)).jump aim))

/-- J and CALL. -/
def Dev.jumpOp (d : Dev) (op t : Nat) (off : BitVec 26) (link : Bool) : Dev :=
  d.drill t maskAll (encF4 op off) (fun d =>
    let x := d.tutor t
    let x' := if link then x.setG 31 (x.pc + 4) else x
    d.setTutor t (x'.jump (branchTo x.pc off.toInt)))

/-! Events (R106) -/

/-- The events of a tutor with the level events of now. -/
def Dev.eventsNow (d : Dev) (t : Nat) : Word :=
  let x := d.tutor t
  let q := if x.queues.any (fun e => !e.2.isEmpty) then 4#32 else 0#32
  let laf := if 1224 ≤ t ∧ t < 1232 ∧ !(d.quad (t - 1224)).laf.isEmpty ∧ !d.rbit (qdrReg (t - 1224) 0) 2 then 0x20#32 else 0#32
  x.events ||| q ||| laf

/-- Set the bits of the level events whose condition holds: done just before a condition may end, so that the bit stays set
until WAIT clears it (R106). -/
def Dev.latchLevels (d : Dev) (t : Nat) : Dev := d.setTutor t { d.tutor t with events := d.eventsNow t }

/-- WAIT takes the lowest set event in its mask, or sleeps (R106). -/
def Dev.wait (d : Dev) (t : Nat) (rd ra : Greg) : Dev :=
  let x := d.tutor t
  let m := d.eventsNow t &&& x.g ra.val
  match firstWhere (fun i => m.getLsbD i) 32 0 with
  | some i =>
    d.setTutor t (({ x with events := x.events &&& ~~~(1#32 <<< i), mode := .running, spent := 0 }.setG rd.val
      (BitVec.ofNat 32 i)).next x.pc.toNat)
  | none => d.setTutor t { x with mode := .waiting, spent := 0 }

/-! Queues (R107 to R109) -/

/-- The message of registers g[r] to g[r + 7]. -/
def TutorSt.msg (x : TutorSt) (r : Nat) : List Word := (List.range 8).map (fun i => x.g (r + i))

/-- Bytes of a list of words. -/
def wordBytes (ws : List Word) : Bytes := ws.flatMap (fun w => leB 4 w.toNat)

/-- Write words into registers from r on. -/
def TutorSt.putMsg (x : TutorSt) (r : Nat) (ws : List Word) : TutorSt :=
  (ws.foldl (fun (a : TutorSt × Nat) w => (a.1.setG a.2 w, a.2 + 1)) (x, r)).1

/-- How a SEND ended. -/
inductive SendOut where
  | done (d : Dev) | full | bad

/-- Special queue 0x80: a task packet, to its quadrant on port 3. -/
def Dev.sendTask (d : Dev) (m : List Word) : SendOut :=
  let p := wordBytes m
  .done (d.send (Pkt.quad p) 3 { pkt := p, sender := 0xFFFE })

/-- Special queue 0x81: a cancel, its reply on the sender's queue 0x0F. -/
def Dev.sendCancel (d : Dev) (t : Nat) (m : List Word) : SendOut :=
  if 8 ≤ (tget [] (d.tutor t).queues 15).length then .full
  else
    let b := wordBytes m
    let r := d.cancel (bits (fld b 0 4) 10 8) (bits (fld b 0 4) 1 0)
      (if bits (fld b 0 4) 1 0 = 1 then bits (fld b 4 4) 9 0 else fld b 4 2) (fld b 8 6)
    .done (r.1.toQueue t 15 ([BitVec.ofNat 32 r.2.1, BitVec.ofNat 32 r.2.2] ++ List.replicate 6 0))

/-- Special queue 0x83: a resubmission (R99). -/
def Dev.sendResub (d : Dev) (m : List Word) : SendOut :=
  let p := d.resubmitted (wordBytes m)
  .done (d.send (Pkt.quad p) 3 { pkt := p, sender := 0xFFFE })

/-- Special queue 0x84: a drill event (R155). -/
def Dev.sendRingpost (d : Dev) (t : Nat) (m : List Word) : SendOut :=
  let b := wordBytes m
  .done (d.offer (bits (fld b 0 4) 13 0) 3 (tutorRef t) false (b.drop 4))

/-- The task offered to the drill of a seat that has a TASK_ID (R109): quadrant and uid. -/
def Dev.offeredAt (d : Dev) (n id : Nat) : Option (Nat × Nat) :=
  (d.seat n).slots.find? (fun e => e.1 == bits id 14 12 && match d.task e.1 e.2 with
    | some k => k.phase == .offered && k.idx == some (bits id 11 0)
    | none => false)

/-- Special queue 0x85: start the offered task with this TASK_ID on the tutor's own seat (R109). -/
def Dev.sendGo (d : Dev) (t : Nat) (m : List Word) : SendOut :=
  match tutorSeat t with
  | none => .done d
  | some s =>
    match d.offeredAt s (m.headD 0).toNat with
    | some e =>
      let x := d.seat s
      let begun (u : Nat × Nat) : Bool := match d.task u.1 u.2 with | some k => k.phase != .offered | none => false
      let slots := x.slots.filter begun ++ e :: x.slots.filter (fun u => u != e && !begun u)
      .done (((d.setSeat s { x with slots }).updTask e.1 e.2 (fun k => { k with phase := .seated_ })).startRun s)
    | none => .done d

/-- A SEND of a message (R107, R108). -/
def Dev.sendMsg (d : Dev) (t r rt queue : Nat) : SendOut :=
  let x := d.tutor t
  let m := x.msg r
  if 24 < r then .bad
  else if rt = 0 then
    if queue = 0x80 then d.sendTask m
    else if queue = 0x81 then d.sendCancel t m
    else if queue = 0x83 then d.sendResub m
    else if queue = 0x84 then d.sendRingpost t m
    else if queue = 0x85 then d.sendGo t m
    else .bad
  else if 0xC ≤ queue then .bad
  else match denseTutor (x.g rt).toNat with
    | none => .bad
    | some u => if 8 ≤ (tget [] (d.tutor u).queues queue).length then .full else .done (d.toQueue u queue m)

/-- SEND: stalls while full. -/
def Dev.sendOp (d : Dev) (t r rt queue : Nat) : Dev :=
  match d.sendMsg t r rt queue with
  | .bad => d.tutorFault t 6
  | .full => d.setTutor t { d.tutor t with mode := .blocked, spent := 0 }
  | .done d => d.setTutor t ({ d.tutor t with mode := .running }.next (d.tutor t).pc.toNat)

/-- SENDNB: the status register tells whether it was sent. -/
def Dev.sendNbOp (d : Dev) (t r rt queue st : Nat) : Dev :=
  let fin (d : Dev) (v : Word) : Dev := d.setTutor t (((d.tutor t).setG st v).next (d.tutor t).pc.toNat)
  match d.sendMsg t r rt queue with
  | .bad => d.tutorFault t 6
  | .full => fin d 1
  | .done d => fin d 0

/-- What a RECV would take: none for a bad queue or register range; the words, or nothing while empty. -/
def Dev.recvMsg (d : Dev) (t r queue : Nat) : Option (Option (List Word) × Dev) :=
  let x := d.tutor t
  if queue = 0x82 then
    if 1224 ≤ t ∧ t < 1232 ∧ r ≤ 16 then
      let y := d.quad (t - 1224)
      match y.laf with
      | [] => some (none, d)
      | e :: rest =>
        if d.rbit (qdrReg (t - 1224) 0) 2 then some (none, d)
        else some (some (words e), (d.latchLevels t).setQuad (t - 1224) { y with laf := rest })
    else none
  else if 0xF < queue ∨ 24 < r then none
  else match tget [] x.queues queue with
    | [] => some (none, d)
    | m :: rest => some (some m, d.setTutor t { x with queues := tput x.queues queue rest, events := d.eventsNow t })

/-- RECV: stalls while empty. -/
def Dev.recvOp (d : Dev) (t r queue : Nat) : Dev :=
  match d.recvMsg t r queue with
  | none => d.tutorFault t 6
  | some (none, d) => d.setTutor t { d.tutor t with mode := .blocked, spent := 0 }
  | some (some m, d) =>
    d.setTutor t (({ d.tutor t with mode := .running, spent := 0 }.putMsg r m).next (d.tutor t).pc.toNat)

/-- RECVNB: the status register tells whether a message was received. -/
def Dev.recvNbOp (d : Dev) (t r queue st : Nat) : Dev :=
  match d.recvMsg t r queue with
  | none => d.tutorFault t 6
  | some (none, d) => d.setTutor t (((d.tutor t).setG st 1).next (d.tutor t).pc.toNat)
  | some (some m, d) => d.setTutor t ((((d.tutor t).putMsg r m).setG st 0).next (d.tutor t).pc.toNat)

/-- QCNT: entries in an own queue (R114). A queue number above 0x0F names no own queue and faults with QUEUE, as R108 and R110
have it for SEND and RECV; they do not name QCNT (DESIGN CHOICE, log entry 86). -/
def Dev.qcntOp (d : Dev) (t r queue : Nat) : Dev :=
  let x := d.tutor t
  if 0xF < queue then d.tutorFault t 6
  else d.setTutor t ((x.setG r (BitVec.ofNat 32 (tget [] x.queues queue).length)).next x.pc.toNat)

/-- Cycles of a tutor's unit (R16, RDSTEP 6): those of the quadrant core, or of the port's domain, whose rate is not given.
Where the count starts is not stated (log entry 49). -/
def Dev.cycleCount (d : Dev) (t : Nat) : Word :=
  BitVec.ofNat 32 (Config.cycleOrigin t + (if t < 1232 then d.qcyc else d.now * Config.portRate t / 65536))

/-- RDSTEP by its imm4 (R114). A scheduler tutor has no seat: what it reads of one is free (log entry 49). -/
def Dev.rdstep (d : Dev) (t imm : Nat) : Word × Dev :=
  let ofSeat (f : SeatSt → Nat) : Word × Dev := match tutorSeat t with
    | some s => (BitVec.ofNat 32 (f (d.seat s)), d)
    | none => (BitVec.ofNat 32 d.drawn.1, d.drawn.2)
  match imm with
  | 0 => (BitVec.ofNat 32 d.step, d)
  | 1 => (BitVec.ofNat 32 (d.step / 2 ^ 32), d)
  | 2 => (BitVec.ofNat 32 d.phase, d)
  | 3 => ofSeat SeatSt.epoch
  | 4 => ofSeat SeatSt.role
  | 5 => (BitVec.ofNat 32 (tutorRef t), d)
  | 6 => (d.cycleCount t, d)
  | _ => (0, d)

/-- A sleeping or blocked tutor tries its instruction again (R106, R107). -/
def Dev.wake (d : Dev) (t : Nat) : Dev :=
  let x := d.tutor t
  let w := x.word
  let op := bits w 31 26
  if x.mode = .waiting then
    d.wait t (Fin.ofNat 32 (bits w 25 21)) (Fin.ofNat 32 (bits w 20 16))
  else if x.mode = .blocked then
    if op = 0x32 then d.recvOp t (bits w 25 21) (bits w 15 8) else d.sendOp t (bits w 25 21) (bits w 20 16) (bits w 15 8)
  else d

/-! Starting and loading (R66, R104, R111) -/

/-- Restart a tutor: registers zero, queues empty, execution from the entry point; scratch is kept (R104, R111). Neither rule
names the event bits and the timer of SETTMR: they stay (DESIGN CHOICE, log entry 87). -/
def Dev.restart (d : Dev) (t : Nat) : Dev :=
  let x := d.tutor t
  d.setTutor t { x with events := d.eventsNow t, regs := [], pc := x.entry, queues := [], loops := [], spent := 0, mode := .running }

/-- Stop a tutor. -/
def Dev.halt (d : Dev) (t : Nat) : Dev :=
  (d.setTutor t { d.tutor t with mode := .halted }).wbit (tutorRegs t) 0 false

/-- Table of the entries of a list from a number on. -/
def tabulate {α : Type} (i : Nat) : List α → Tbl α
  | [] => []
  | x :: t => (i, x) :: tabulate (i + 1) t

/-- Load a drill image and restart at its entry point (R66). -/
def Dev.loadDrill (d : Dev) (t : Nat) (g : Drill) : Dev :=
  let x := d.tutor t
  let scratch := (tabulate 0 g.scratch).foldl (fun s e => tput s e.1 e.2) x.scratch
  let drill := (tabulate 0 (words g.code)).foldl (fun s e => tput s e.1 e.2) x.drill
  ((d.setTutor t { x with drill, scratch, entry := BitVec.ofNat 32 g.entry }).wbit (tutorRegs t) 0 true).restart t

end Sys2Proof.Machine
end

