-- ==== Sys2Proof/Machine/PlatCheck.lean ====
section
/-! DEFINITION. Reading a Plat and the checks of R49 to R70, R81 and R458, in the order of R69. -/
namespace Sys2Proof.Machine

/-- What a refused load reports (R70). -/
structure LoadErr where
  status : Status
  section_ : Nat := 0
  entry : Nat := 0xFFFFFFFF
  kind : Nat := 0
  id : Nat := 0
  section2 : Nat := 0
  entry2 : Nat := 0xFFFFFFFF
  deriving DecidableEq, Repr, Inhabited

/-- The 64-byte load report (R70). -/
def loadReport (e : Option LoadErr) (platId : Nat) : Bytes :=
  let r := e.getD { status := .ok }
  leB 1 r.status.code ++ leB 1 r.kind ++ leB 2 r.section_ ++ leB 4 r.entry ++ leB 4 r.id ++ leB 2 r.section2 ++ zeros 2
    ++ leB 4 r.entry2 ++ leB 8 platId ++ zeros 36

/-- A directory entry: type, offset, length, CRC. -/
structure DirEnt where
  type : Nat
  off : Nat
  len : Nat
  crc : Nat
  deriving DecidableEq, Repr, Inhabited

def directory (p : Bytes) : List DirEnt :=
  (List.range (fld p 12 2)).map (fun i =>
    let o := 64 + 16 * i
    { type := fld p o 2, off := fld p (o + 4) 4, len := fld p (o + 8) 4, crc := fld p (o + 12) 4 })

/-- Section types allowed in a kind of Plat (R50). -/
def sectionAllowed (kind type : Nat) : Bool :=
  match kind with
  | 0 => 1 ≤ type && type ≤ 11
  | 1 => [1, 4, 5, 7].contains type
  | _ => [5, 11].contains type

/-- Section types a kind requires (R50). -/
def sectionsRequired (kind : Nat) : List Nat :=
  match kind with | 0 => [1, 2, 4] | 1 => [1] | _ => [5, 11]

/-- The directory obeys R49 and R50; a section of no bytes may share its OFFSET with the next. -/
def directoryOk (p : Bytes) (kind len : Nat) : Bool :=
  let ds := directory p
  let n := ds.length
  ds.all (fun e => sectionAllowed kind e.type && e.off % 64 == 0 && 64 + 16 * n ≤ e.off && e.off + e.len ≤ len - 128)
    && (List.range n).all (fun i => zeroAt p (64 + 16 * i + 2) 2)
    && (ds.zip ds.tail).all (fun e => e.1.off ≤ e.2.off && e.1.off + e.1.len ≤ e.2.off)
    && decide ((ds.map (·.type)).Nodup)
    && (sectionsRequired kind).all (fun t => ds.any (fun e => e.type == t))

/-- Step 1 of R69: the header, the directory, R460 and the zero bytes of the signature block. -/
def headerOk (p : Bytes) (len : Nat) : Bool :=
  let kind := fld p 6 1
  let st := fld p 32 2
  fld p 0 4 == 0x54414C50 && fld p 4 2 == 1 && kind ≤ 2 && fld p 7 1 == 0xA1
    && fld p 8 4 == len && p.length == len && len % 64 == 0 && 192 ≤ len
    && len ≤ (if kind = 0 then 0x10000000 else 0x800000)
    && 1 ≤ fld p 12 2 && fld p 12 2 ≤ 16
    && (kind == 1 || fld p 14 2 == 0)
    && (kind != 0 || fld p 24 8 == 0)
    && (st == 0xFFFF || st < 2048)
    && 1 ≤ fld p 34 2 && fld p 34 2 ≤ 2048
    && (if kind = 0 then fld p 36 4 ≤ 0x200000 else fld p 36 4 == 0)
    && (kind == 0 || (fld p 40 8 == 0 && fld p 48 8 == 0))
    && zeroAt p 60 4
    && directoryOk p kind len
    && zeroAt p (len - 124) 12 && zeroAt p (len - 16) 16

/-! Sections -/

def sectionBody (p : Bytes) (type : Nat) : Option Bytes :=
  ((directory p).find? (fun e => e.type == type)).map (fun e => slice p e.off e.len)

/-- Entries of a fixed size. -/
def entries (b : Bytes) (n : Nat) : List Bytes := chunk n b

def seatEntry (p e : Bytes) : SeatEntry :=
  { seat := fld e 0 2, role := fld e 2 1, pri := fld e 3 1, drill := fld e 4 2, subst := fld e 6 2
    params := slice p (fld e 8 4) (fld e 12 4) }

def allocRec (e : Bytes) (fromPlat : Bool) : Alloc :=
  { id := fld e 0 4, kind := fld e 4 1, iset := fld e 5 1, flags := fld e 6 2, base := fld e 8 8, size := fld e 16 8
    unit := fld e 24 2, owner := fld e 26 2, fromPlat }

def ringMapEnt (e : Bytes) : RingMap :=
  { ring := fld e 0 2, quad := fld e 2 1, pri := fld e 3 1, lane := fld e 4 2, role := fld e 6 1, slot := fld e 7 1
    cplRing := fld e 8 2, channel := fld e 10 1, privileged := bit (fld e 11 1) 0 }

def routeEnt (e : Bytes) : Route :=
  { id := fld e 0 2, src := fld e 2 2, dkind := fld e 4 1, tc := bits (fld e 5 1) 1 0, retire := bit (fld e 5 1) 2
    dest := fld e 6 2, dquad := fld e 8 1, role := fld e 9 1, slot := bits (fld e 10 1) 1 0, pri := bits (fld e 10 1) 4 2
    opcount := bits (fld e 10 1) 7 5, stamp := fld e 11 1, lane := fld e 12 2, srcChan := fld e 14 1
    dstChan := fld e 15 1, weight := fld e 16 1, arg := fld e 20 4 }

/-- Drill images, one after the other, each padded to 64 bytes (R65). The fuel is the section's length. -/
def drillRecs : Nat → Bytes → List (Bool × Drill)
  | 0, _ => []
  | f + 1, b =>
    if b.length < 16 then []
    else
      let code := fld b 4 4
      let scr := fld b 8 4
      let g : Drill := { index := fld b 0 2, kinds := fld b 2 2, entry := fld b 12 4, code := slice b 16 code,
                         scratch := slice b (16 + code) scr }
      let ok := code % 4 == 0 && code ≤ 16384 && scr ≤ 8192 && g.entry % 4 == 0 && g.entry < code && g.kinds < 32
        && 16 + code + scr ≤ b.length
      (ok, g) :: drillRecs f (b.drop (upTo (16 + code + scr) 64))

def ttEnt (e : Bytes) : TtEntry :=
  { index := fld e 0 1, repeat_ := bit (fld e 1 1) 0, phase := fld e 2 2, ofs := fld e 4 2, action := fld e 6 1
    interval := fld e 7 1, arg := fld e 8 4 }

def fbEnt (e : Bytes) : FbEntry :=
  { column := fld e 0 2
    col := { unit := denseCluster (fld e 2 1), stream := fld e 3 1, exp := sx 8 (fld e 4 1), extAlloc := fld e 8 4, seed := slice e 32 96 } }

def claimEnt (i : Nat) (e : Bytes) : Claim :=
  { kind := fld e 0 1, shared := fld e 1 1 == 1, pinRole := fld e 2 1, id := fld e 4 4, section_ := 8, entry := i }

/-- The Plat as its sections spell it. -/
def readPlat (p : Bytes) : Plat :=
  let sec (t : Nat) : Bytes := (sectionBody p t).getD []
  let es (t n : Nat) : List Bytes := entries (sec t) n
  { kind := fld p 6 1, fragId := fld p 14 2, id := fld p 16 8, replicaBudget := fld p 36 4, streamBytes := fld p 40 8
    peerBytes := fld p 48 8
    seating := (es 1 16).map (fun b =>
      let e := seatEntry p b
      { e with image := if e.drill = 0xFFFF then none else (drillRecs (sec 5).length (sec 5)).findSome? (fun g =>
          if g.2.index = e.drill then some g.2 else none) })
    allocs := (es 2 32).map (allocRec · true)
    ringMap := (es 3 16).map ringMapEnt
    routes := (es 4 32).map routeEnt
    drills := (drillRecs (sec 5).length (sec 5)).map (·.2)
    timetable := (es 6 16).map ttEnt
    fieldBook := (es 7 128).map fbEnt
    resources := (tabulate 0 (es 8 8)).map (fun e => claimEnt e.1 e.2)
    interleave := sec 9
    registers := (es 10 8).map (fun e => (fld e 0 4, fld e 4 4))
    loads := (es 11 4).map (fun e => (fld e 0 2, fld e 2 2))
    raw := p }

/-! Field checks (R69 step 5) -/

/-- Roles that a seat accepts (R17). -/
def roleAccepted (s role : Nat) : Bool :=
  if role = 0 then true
  else if s < 1152 then 1 ≤ role && role ≤ 11
  else if s < 1224 then role == 12 || role == 13
  else if s < 1296 then role == 14
  else role == 15

/-- The first index of a list where a check fails. -/
def firstBad {α : Type} (ok : Nat → α → Bool) (l : List α) : Option Nat :=
  (tabulate 0 l).findSome? (fun e => if ok e.1 e.2 then none else some e.1)

/-- The configuration that a Plat makes of the seating in force: its seating and routes (full or by fragment, R54, R62). -/
def seatingAfter (now : List SeatEntry) (p : Plat) : List SeatEntry :=
  if p.kind = 0 then p.seating
  else now.filter (fun e => !p.seating.any (fun n => n.seat == e.seat)) ++ p.seating

def routesAfter (now : List Route) (p : Plat) : List Route :=
  if p.kind = 0 then p.routes
  else now.filter (fun r => !p.routes.any (fun n => n.id == r.id)) ++ p.routes.filter (fun r => !r.retire)

/-- Role of a seat in a seating. -/
def roleIn (l : List SeatEntry) (ref : Nat) : Nat := ((l.find? (fun e => e.seat == ref)).map (·.role)).getD 0

/-- The entry's substitute serves under R57 when it is a tile of the quadrant that the seating leaves IDLE; a tile that only
serves as a substitute counts as one. -/
def substOk (after : List SeatEntry) (serving : List Nat) (p : Plat) (e : SeatEntry) : Bool :=
  e.subst == 0xFFFF ||
    match denseSeat e.seat, denseSeat e.subst with
    | some a, some b => a < 1152 && b < 1152 && a / 144 == b / 144
        && (roleIn after e.subst == 0 || (serving.contains b && roleIn p.seating e.subst == 0))
    | _, _ => false

/-- Substitutes that serve tiles which a Plat does not name: they are taken (R57, R79). -/
def takenSubst (serving : Tbl Nat) (p : Plat) : List Nat :=
  if p.kind = 0 then []
  else (serving.filter (fun e => !p.seating.any (fun x => denseSeat x.seat == some e.2))).map (·.1)

/-- R79 over the entries in order: a quarantined tile needs a substitute that is not quarantined or taken. -/
def quarantineBad (quar : Nat → Bool) : List SeatEntry → Nat → List Nat → Option Nat
  | [], _, _ => none
  | e :: t, i, taken =>
    match denseSeat e.seat with
    | some s =>
      if s < 1152 ∧ quar s ∧ e.role ≠ 0 then
        match denseSeat e.subst with
        | some u => if e.subst ≠ 0xFFFF ∧ !quar u ∧ ¬ u ∈ taken then quarantineBad quar t (i + 1) (u :: taken) else some i
        | none => some i
      else quarantineBad quar t (i + 1) taken
    | none => quarantineBad quar t (i + 1) taken

/-- R58 steps 1 to 3; `known` says that another record carries its ALLOC_ID. None when well formed. -/
def allocBad (d : Dev) (sets : Bytes) (known : Bool) (raw : Bytes) : Option Status :=
  let a := allocRec raw true
  if a.size = 2 ^ 64 - 1 then some .descInvalid
  else if known ∨ a.id = 0 ∨ 3 < a.kind ∨ 32 ≤ a.flags ∨ a.size = 0 ∨ a.size % 64 ≠ 0 ∨ 2 ^ 48 ≤ a.base
      ∨ (if a.kind = 0 then 3 < a.iset else a.iset ≠ 0)
      ∨ !(match a.kind with | 0 => a.unit == 0 | 1 => tileOk a.unit | _ => clusterOk a.unit)
      ∨ (a.owner ≠ 0xFFFF ∧ denseSeat a.owner = none) ∨ !zeroAt raw 28 4 then some .descInvalid
  else
    let (lo, hi) := match a.kind with
      | 0 => d.setRange sets a.iset
      | 1 => (SLATE + a.unit * 0x100000, SLATE + a.unit * 0x100000 + 0x80000)
      | _ => (BOARD + a.unit * 0x800000, BOARD + a.unit * 0x800000 + 0x600000)
    if lo ≤ a.base ∧ a.base + a.size ≤ hi then none else some .lenRange

/-- Two ranges that may not both be claimed (R58 step 5). -/
def allocClash (a b : Alloc) : Bool :=
  a.base < b.base + b.size && b.base < a.base + a.size && !(bit a.flags 3 && bit b.flags 3)

/-- BOARD_REPLICA bytes of a cluster. -/
def replicaSum (l : List Alloc) (unit : Nat) : Nat :=
  ((l.filter (fun a => a.kind == 3 && a.unit == unit)).map (·.size)).foldl (· + ·) 0

/-- A ring-map entry (R60). -/
def ringMapOk (d : Dev) (raw : Bytes) : Bool :=
  let m := ringMapEnt raw
  1 ≤ m.ring && m.ring < 16384 && m.quad < 8 && m.pri < 8 && m.lane < 1024 && 1 ≤ m.role && m.role ≤ 15 && m.slot < 4
    && m.cplRing < 16384 && ((m.channel < 16 && m.role == 1) || m.channel == 0xFF) && fld raw 11 1 < 2 && zeroAt raw 12 4
    && d.ringKind m.ring == 0 && d.ringKind m.cplRing == 1 && (!m.privileged || m.channel != 0xFF)

/-- Where a crossbar channel is named for a seat. -/
def hasChannel (s : Nat) : Bool := s < 1296

/-- A route entry against the seating after (R61, R62). -/
def routeOk (after : List SeatEntry) (now : List Route) (kind : Nat) (raw : Bytes) : Bool :=
  let r := routeEnt raw
  let rflags := fld raw 5 1
  if r.retire then
    kind == 1 && now.any (fun n => n.id == r.id) && zeroAt raw 2 3 && rflags == 4 && zeroAt raw 6 26
  else
    let srcSeat := denseSeat r.src
    let stream := 0xE000 ≤ r.src && r.src < 0xE040
    let srcOk := stream || match srcSeat with
      | some s => (s < 1152 && roleIn after r.src != 0) || (1152 ≤ s && s < 1224 && roleIn after r.src == 12)
      | none => false
    let destOk := match r.dkind with
      | 0 => !stream && (denseSeat r.dest).isSome && r.role == roleIn after r.dest && r.dquad == 0
      | 1 => r.dest < 8 && r.dquad == 0 && r.role ≤ 15
      | 2 => !stream && r.dest < 64 && r.dquad == 0 && r.role == 0 && roleIn after r.src == 11
          && (match after.find? (fun e => e.seat == r.src) with | some e => fld e.params 2 1 == r.dest | none => false)
      | 3 => r.dest < 2048 && r.dquad < 8 && r.role ≤ 15
      | 4 => r.dest < 16384 && r.dquad == 0 && r.role == 0
      | _ => false
    let spOk := if r.dkind = 2 ∨ r.dkind = 4 then fld raw 10 1 == 0 else 1 ≤ r.opcount && r.opcount ≤ 4
    let dstOk := match r.dkind, denseSeat r.dest with
      | 0, some s => if hasChannel s then r.dstChan < 64 else r.dstChan == 0xFF
      | _, _ => r.dstChan == 0xFF
    r.id < 65535 && rflags < 4 && srcOk && destOk && spOk && r.stamp == 0 && r.lane < 1024
      && (if stream then r.srcChan == 0xFF else r.srcChan < 64) && dstOk && 1 ≤ r.weight
      && zeroAt raw 17 3 && zeroAt raw 24 8

/-- A FIELD_BOOK entry (R458). -/
def fieldBookOk (after : List SeatEntry) (raw : Bytes) : Bool :=
  fld raw 0 2 < 8192 && clusterOk (fld raw 2 1) && fld raw 3 1 < 64 && decide (-64 ≤ sx 8 (fld raw 4 1))
    && decide (sx 8 (fld raw 4 1) ≤ 63) && zeroAt raw 5 3 && zeroAt raw 12 20 && zeroAt raw 120 8
    && roleIn after (0x4000 + fld raw 2 1) == 14

/-- Range of resource IDs by kind (R81). -/
def resourceOk (raw : Bytes) : Bool :=
  let k := fld raw 0 1
  let id := fld raw 4 4
  let pr := fld raw 2 1
  fld raw 1 1 ≤ 1 && fld raw 3 1 == 0
    && (match k with
        | 1 => id ≤ 6 && (if id ≤ 1 then pr == 0 else if id = 2 then pr == 1 || pr == 2 else 2 ≤ pr && pr ≤ 4)
        | 2 => id < 256 && pr == 0
        | 3 => id < 64 && pr == 0
        | 4 => id < 16384 && pr == 0
        | 5 => id < 2048 && pr == 0
        | 6 => id != 0 && pr == 0
        | 7 => id < 8192 && pr == 0
        | 8 => id < 16 && pr == 0
        | 9 => id < 2 * 65536 && pr == 0
        | 10 => id < 16 && pr == 0
        | 11 => id < 2 * 65536 && pr == 0
        | 12 => id < 72 * 64 && pr == 0
        | _ => false)

/-- A REGISTERS pair (R68). -/
def registerOk (p : Nat × Nat) : Bool :=
  let o := p.1
  o % 4 == 0 && o < 0x600000 && !(0x70000 ≤ o && o < 0x80000) && !(0x180000 ≤ o && o < 0x200000)
    && !(0x30000 ≤ o && o < 0x40000) && !(0x50000 ≤ o && o < 0x70000)

/-- EN of an emit stream as the REGISTERS section leaves it (R38). -/
def emitEnAfter (d : Dev) (p : Plat) (n : Nat) : Bool :=
  match (p.registers.filter (fun r => r.1 == 0x23000 + 4 * n)).getLast? with
  | some r => bit r.2 31
  | none => d.rbit (TTB + 0x3000 + 4 * n) 31

/-- A REGISTERS pair that enables an alignment group finds its marks in order (R195), judged by the pairs before it. -/
def groupMarksOk (d : Dev) (p : Plat) (i : Nat) (r : Nat × Nat) : Bool :=
  if 0x120000 ≤ r.1 ∧ r.1 < 0x121000 ∧ r.1 % 0x100 = 0 ∧ bit r.2 31 then
    let v (off : Nat) : Nat := match ((p.registers.take i).filter (fun x => x.1 == r.1 + off)).getLast? with
      | some x => x.2
      | none => d.rn (GLB + r.1 + off)
    let size := match p.allocs.find? (fun a => a.id == v 0x30) with | some a => a.size / 1024 | none => 0
    bits (v 0x48) 15 0 ≤ bits (v 0x48) 31 16 && bits (v 0x48) 31 16 < bits (v 0x4C) 15 0
      && bits (v 0x4C) 15 0 ≤ bits (v 0x4C) 31 16 && bits (v 0x4C) 31 16 ≤ size
  else true

/-- Images that the Plat can name: its own, for a fragment or container with the seated ones behind them. -/
def drillOk (p : Plat) (t : Option Nat) (i : Nat) : Bool :=
  match t, p.drills.find? (fun g => g.index == i) with
  | some t, some g => bit g.kinds (tutorKind t)
  | _, _ => false

/-- The seat groups of ENCODE seats (R38). -/
def encodeGroupsOk (after : List SeatEntry) : Bool :=
  let es := after.filter (fun e => e.role == 11)
  es.all (fun a => es.all (fun b => fld a.params 2 1 != fld b.params 2 1 ||
    (a.params == b.params && (denseSeat a.seat).map (· / 144) == (denseSeat b.seat).map (· / 144))))

/-- An earlier entry of a list has the same key. -/
def dupBefore {α : Type} (key : α → Nat) (l : List α) (i : Nat) (x : α) : Bool := (l.take i).any (fun y => key y == key x)

/-- Every task of a seat group of ENCODE seats uses one lane (R38): the routes and ring-map entries into the group agree. -/
def encodeLanesOk (after : List SeatEntry) (routes : List Route) (maps : List RingMap) : Bool :=
  let es := after.filter (fun e => e.role == 11)
  es.all (fun a =>
    let group := es.filter (fun b => fld b.params 2 1 == fld a.params 2 1)
    let q := ((denseSeat a.seat).map (· / 144)).getD 8
    let lanes := (routes.filter (fun r => (r.dkind == 0 && group.any (fun b => b.seat == r.dest))
        || (r.dkind == 1 && r.role == 11 && r.dest == q))).map (·.lane)
      ++ (maps.filter (fun m => m.role == 11 && m.quad == q)).map (·.lane)
    lanes.all (fun l => some l == lanes.head?))

/-- The first bad entry of each section, in the directory's order (R69 step 5). DESIGN CHOICE (log entry 80): a section whose
length is no multiple of its entry size is refused naming the count of its whole entries; an enabled emit stream without a route
names section 4 and the stream's number; a seat group's fault names section 1 and entry 0xFFFF_FFFF; the quarantine check of R79
comes after the other checks of SEATING entries and before those of seat groups. -/
def fieldCheck (d : Dev) (raw : Bytes) (p : Plat) : Option LoadErr :=
  let after := seatingAfter d.plt.seats p
  let sets := if p.kind = 0 ∧ d.setsOk p.interleave then p.interleave else []
  let allocs := if p.kind = 0 then p.allocs else d.plt.allocs
  let body (t : Nat) : Bytes := (sectionBody raw t).getD []
  let ragged (t n : Nat) : Option LoadErr :=
    if (body t).length % n = 0 then none else some { status := .descInvalid, section_ := t, entry := (body t).length / n }
  let bad (t : Nat) (i : Option Nat) : Option LoadErr := i.map (fun i => { status := .descInvalid, section_ := t, entry := i })
  let rawEnts (t n : Nat) : List Bytes := entries (body t) n
    let check (t : Nat) : Option LoadErr :=
    match t with
    | 1 => ragged 1 16 <|> (tabulate 0 (p.seating.zip (rawEnts 1 16))).findSome? (fun (x : Nat × SeatEntry × Bytes) =>
        let i := x.1
        let e := x.2
        let c : ParamCtx := { seat := e.1.seat, allocs, emitEn := emitEnAfter d p, seating := after
                              cols := p.fieldBook ++ d.fb.cols.map (fun (k : Nat × FbCol) => { column := k.1, col := k.2 })
                              maps := if p.kind = 0 then p.ringMap else d.plt.ringMap }
        let st := must ((match denseSeat e.1.seat with
          | none => false
          | some s => e.1.role ≤ 15 && roleAccepted s e.1.role
              && (e.1.drill == 0xFFFF || drillOk p (seatTutor s) e.1.drill)
              && (s < 1296 || (fld e.2 8 4 == 0 && fld e.2 12 4 == 0)))
          && e.1.pri < 8 && !dupBefore SeatEntry.seat p.seating i e.1 && substOk after (d.plt.serving.map (·.1)) p e.1
          && fld e.2 8 4 + fld e.2 12 4 ≤ raw.length - 128) <|> paramsOk c e.1.role e.1.params
        st.map (fun st => { status := st, section_ := 1, entry := i }))
        <|> bad 1 (quarantineBad d.quar p.seating 0 (takenSubst d.plt.serving p))
        <|> (if encodeGroupsOk after && encodeLanesOk after (routesAfter d.plt.routes p) (if p.kind = 0 then p.ringMap else d.plt.ringMap) then none else some { status := .descInvalid, section_ := 1, entry := 0xFFFFFFFF })
    | 2 => ragged 2 32 <|> (tabulate 0 (rawEnts 2 32)).findSome? (fun e =>
        let a := allocRec e.2 true
        let st := match allocBad d sets (dupBefore Alloc.id p.allocs e.1 a) e.2 with
          | some st => some st
          | none =>
            if a.kind = 3 ∧ min 0x200000 p.replicaBudget < replicaSum (p.allocs.take (e.1 + 1)) a.unit then some .lenRange
            else none
        st.map (fun st => { status := st, section_ := 2, entry := e.1 }))
    | 3 => ragged 3 16 <|> bad 3 (firstBad (fun _ e => ringMapOk d e) (rawEnts 3 16))
    | 4 => ragged 4 32 <|> bad 4 (firstBad (fun i e => routeOk after d.plt.routes p.kind e
        && !dupBefore Route.id p.routes i (routeEnt e)) (rawEnts 4 32))
        <|> bad 4 (firstBad (fun n b => !b || (routesAfter d.plt.routes p).any (fun r => r.src == 0xE000 + n)
              || (p.kind != 0 && !d.plt.routes.any (fun r => r.src == 0xE000 + n))) ((List.range 64).map (emitEnAfter d p)))
    | 5 => bad 5 (firstBad (fun _ (e : Bool × Drill) => e.1) (drillRecs (body 5).length (body 5)))
    | 6 => ragged 6 16 <|> bad 6 (firstBad (fun _ e => fld e 1 1 < 2 && fld e 6 1 ≤ 10 && zeroAt e 12 4) (rawEnts 6 16))
    | 7 => ragged 7 128 <|> bad 7 (firstBad (fun i e => fieldBookOk after e && !dupBefore FbEntry.column p.fieldBook i (fbEnt e))
        (rawEnts 7 128))
    | 8 => ragged 8 8 <|> bad 8 (firstBad (fun _ e => resourceOk e) (rawEnts 8 8))
    | 9 => if d.setsOk (body 9) then none
             else some { status := .descInvalid, section_ := 9, entry := (d.setsEntry (body 9)).getD 0xFFFFFFFF }
    | 10 => ragged 10 8 <|> bad 10 (firstBad (fun i e => registerOk e && groupMarksOk d p i e) p.registers)
    | _ => ragged 11 4 <|> bad 11 (firstBad (fun _ e => drillOk p (denseTutor e.1) e.2) p.loads)
  (directory raw).findSome? (fun e => check e.type)

/-! Resource claims (R81, R82) -/

/-- Claims of a route: its emit stream, its crossbar channels. -/
def routeClaims (i : Nat) (r : Route) : List Claim :=
  let c (kind id : Nat) : Claim := { kind, shared := false, pinRole := 0, id, section_ := 4, entry := i }
  (if 0xE000 ≤ r.src ∧ r.src < 0xE040 then [c 3 (r.src - 0xE000)] else [])
    ++ (match denseSeat r.src with | some s => if r.srcChan < 64 then [c 12 (seatCluster s * 64 + r.srcChan)] else [] | none => [])
    ++ (match r.dkind, denseSeat r.dest with
        | 0, some s => if r.dstChan < 64 then [c 12 (seatCluster s * 64 + r.dstChan)] else []
        | _, _ => [])

/-- Channels reserved for a substitute in another cluster (R57). -/
def substClaims (routes : List Route) (i : Nat) (e : SeatEntry) : List Claim :=
  match denseSeat e.seat, denseSeat e.subst with
  | some a, some b =>
    if e.subst = 0xFFFF ∨ a / 16 = b / 16 then []
    else
      let ch := (routes.filterMap (fun r => if r.src == e.seat && r.srcChan < 64 then some r.srcChan else none))
        ++ (routes.filterMap (fun r => if r.dkind == 0 && r.dest == e.seat && r.dstChan < 64 then some r.dstChan else none))
      (dedup ch).map (fun k => { kind := 12, shared := true, pinRole := 0, id := b / 16 * 64 + k, section_ := 1, entry := i })
  | _, _ => []

/-- Claims of a timetable entry. -/
def ttClaims (i : Nat) (e : TtEntry) : List Claim :=
  let c (kind : Nat) (shared : Bool) (pr id : Nat) : Claim := { kind, shared, pinRole := pr, id, section_ := 6, entry := i }
  [c 2 false 0 e.index]
    ++ (if e.action = 8 then [c 1 true 4 (3 + bits e.arg 1 0)] else [])
    ++ (if e.action = 9 then [c 10 true 0 (bits e.arg 0 0 * 8 + bits e.arg 3 1)] else [])

/-- All claims of a Plat, section by section. -/
def platClaims (routes : List Route) (p : Plat) : List Claim :=
  let idx {α : Type} (l : List α) := tabulate 0 l
  (idx p.seating).flatMap (fun e => substClaims routes e.1 e.2)
    ++ (idx p.ringMap).flatMap (fun e =>
        { kind := 4, shared := false, pinRole := 0, id := e.2.ring, section_ := 3, entry := e.1 } ::
        (if e.2.channel < 16 then
          [{ kind := 8, shared := false, pinRole := 0, id := e.2.channel, section_ := 3, entry := e.1 }] else []))
    ++ (idx p.routes).flatMap (fun e => if e.2.retire then [] else routeClaims e.1 e.2)
    ++ (idx p.timetable).flatMap (fun e => ttClaims e.1 e.2)
    ++ (idx p.fieldBook).map (fun e => { kind := 7, shared := false, pinRole := 0, id := e.2.column, section_ := 7, entry := e.1 })
    ++ p.resources.map (fun c => if c.kind = 10 then { c with shared := true } else c)

/-- Two claims on one resource conflict (R81). -/
def clash (a b : Claim) : Bool := a.kind == b.kind && a.id == b.id && !(a.shared && b.shared && a.pinRole == b.pinRole)

/-- The first claim that conflicts with an earlier one; claims of the seated configuration come first. -/
def claimCheck (live : List Claim) : List Claim → Option LoadErr
  | [] => none
  | c :: t =>
    match live.find? (clash c) with
    | some e => some { status := .platConflict, section_ := c.section_, entry := c.entry, kind := c.kind, id := c.id,
                       section2 := e.section_, entry2 := e.entry }
    | none => claimCheck (live ++ [c]) t

/-- Memory claims of the ALLOCATION section (kind 6). -/
def memoryCheck (seen : List Alloc) : List Alloc → Option LoadErr
  | [] => none
  | a :: t =>
    match (tabulate 0 seen).find? (fun e => allocClash a e.2) with
    | some e => some { status := .platConflict, section_ := 2, entry := seen.length, kind := 6, id := e.2.id, section2 := 2, entry2 := e.1 }
    | none => memoryCheck (seen ++ [a]) t

/-- Claims of the seated configuration that a fragment does not take over. -/
def liveClaims (d : Dev) (p : Plat) : List Claim :=
  let kept := d.plt.routes.filter (fun r => !p.routes.any (fun n => n.id == r.id))
  let after := seatingAfter d.plt.seats p
  let old (c : Claim) : Claim := { c with entry := 0xFFFFFFFF }
  ((d.plt.claims.filter (fun c => c.section_ != 4 && c.section_ != 1 && c.section_ != 7)).map old)
    ++ (kept.flatMap (fun r => (routeClaims 0 r).map old))
    ++ ((after.filter (fun e => !p.seating.any (fun n => n.seat == e.seat))).flatMap
        (fun e => (substClaims (routesAfter d.plt.routes p) 0 e).map old))
    ++ ((d.fb.cols.filter (fun c => !p.fieldBook.any (fun n => n.column == c.1))).map
        (fun c => { kind := 7, shared := false, pinRole := 0, id := c.1, section_ := 7, entry := 0xFFFFFFFF }))

/-- Steps 5 and 6 of R69. -/
def platFields (d : Dev) (raw : Bytes) (p : Plat) : Option LoadErr :=
  fieldCheck d raw p <|> (if p.kind = 0 then memoryCheck [] p.allocs else none)
    <|> claimCheck (if p.kind = 0 then [] else liveClaims d p) (platClaims (routesAfter d.plt.routes p) p)

/-- PLAT_ID of the seated Plat. -/
def Dev.platId (d : Dev) : Nat := d.rn2 (PLT + 8)

/-- The whole check of R69, given whether the signature holds (R422): what is refused, or the Plat. -/
def checkPlat (d : Dev) (station : Nat) (sigOk : Bool) (raw : Bytes) (len : Nat) : Except LoadErr Plat :=
  if !headerOk raw len then .error { status := .format }
  else if !sigOk then .error { status := .signature }
  else match (directory raw).find? (fun e => (crc32c (slice raw e.off e.len)).toNat != e.crc) with
    | some e => .error { status := .checkMismatch, section_ := e.type }
    | none =>
      let p := readPlat raw
      if (fld raw 32 2 ≠ 0xFFFF ∧ fld raw 32 2 ≠ station) ∨ (p.kind ≠ 0 ∧ (!d.plt.seated ∨ fld raw 24 8 ≠ d.platId)) then
        .error { status := .descInvalid }
      else match platFields d raw p with
        | some e => .error e
        | none => .ok p

end Sys2Proof.Machine
end

