-- ==== Sys2Proof/Machine/Seating.lean ====
section
/-! DEFINITION. Seating and re-seating (R57, R62 to R66, R71 to R80, R97). What the switch of a full Plat does at once
stands here; what waits for the end of seating is in Bell.lean. -/
namespace Sys2Proof.Machine

/-- The histories that a STATE_ALLOC holds after a full switch (R72 step 4, R241): kept with PRESERVE, none with
ZERO_ON_LOAD, and otherwise undefined (log entry 15). -/
def Dev.seqAfter (d : Dev) (kept : List Alloc) (a : Alloc) : SeqSt :=
  if kept.any (fun k => k.id == a.id) then tget {} d.seqs a.id
  else if bit a.flags 2 then {}
  else
    let ks := Config.freeHistory (Config.freeNat (d.free + a.id))
    { keys := ks.map (fun (k : Nat × List (Nat × Nat × Bytes)) =>
        (k.1, k.2.map (fun (e : Nat × Nat × Bytes) => { time := e.1, ord := e.2.1, carried := e.2.2 })))
      next := Config.freeNat d.free }

/-- Joins are empty after a full switch, and a sequence's histories are what its STATE_ALLOC holds (R72). -/
def Dev.clearSeatWork (d : Dev) (kept : List Alloc) (p : Plat) : Dev :=
  let ids := dedup (p.seating.filterMap (fun e => if e.role = 8 then some (fld e.params 16 4) else none))
  let seqs := (p.allocs.filter (fun a => ids.contains a.id)).foldl (fun (t : Tbl SeqSt) a => tput t a.id (d.seqAfter kept a)) []
  { d with joins := [], seqs, free := d.free + 1 }

/-- PLT_STATUS bits. -/
def Dev.pltFlag (d : Dev) (i : Nat) : Dev := d.wbit (PLT + 4) i true

/-- Routes of a seat given to its substitute (R57): those into it stamped with the substitute's epoch, those out of it sent
from the substitute. -/
def Route.moveTo (r : Route) (from_ aim epoch : Nat) : Route :=
  let r := if r.src = from_ then { r with src := aim } else r
  if r.dkind = 0 ∧ r.dest = from_ then { r with dest := aim, stamp := epoch } else r

/-- Lay routes with the stamps of their destination seats (R62, R63). -/
def Dev.stamp (d : Dev) (r : Route) : Route :=
  match r.dkind, denseSeat r.dest with
  | 0, some s => { r with stamp := (d.seat s).epoch }
  | _, _ => r

/-- Routes in ascending ROUTE_ID. -/
def sortRoutes (l : List Route) : List Route := sortBy (fun a b => a.id ≤ b.id) l

/-- Give a seat a role: its new epoch, entry and parameter block; it is closed until it opens (R63, R77). -/
def Dev.seatAs (d : Dev) (s : Nat) (e : SeatEntry) (bumpEpoch : Bool) : Dev :=
  let x := d.seat s
  d.setSeat s { x with role := e.role, pri := e.pri, drill := e.drill, subst := e.subst, params := e.params, opened := false,
                       epoch := if bumpEpoch then (x.epoch + 1) % 256 else x.epoch }

/-- The entry of a seat without one (R54). -/
def idleEntry (ref : Nat) : SeatEntry := { seat := ref, role := 0, pri := 0, drill := 0xFFFF, subst := 0xFFFF, params := [] }

/-- The seating that takes effect when quarantined tiles give way to their substitutes (R79): the entries, and the moves
from tile to substitute (seat references). A quarantined tile without a free substitute stays IDLE (R410). -/
def substitute (quar : Nat → Bool) : List SeatEntry → List Nat → List SeatEntry × List (Nat × Nat)
  | [], _ => ([], [])
  | e :: t, taken =>
    match denseSeat e.seat with
    | some s =>
      if s < 1152 ∧ quar s ∧ e.role ≠ 0 then
        match denseSeat e.subst with
        | some u =>
          if e.subst ≠ 0xFFFF ∧ !quar u ∧ ¬ u ∈ taken then
            let r := substitute quar t (u :: taken)
            ({ e with seat := e.subst, subst := 0xFFFF } :: r.1, (e.seat, e.subst) :: r.2)
          else substitute quar t taken
        | none => substitute quar t taken
      else let r := substitute quar t taken; (e :: r.1, r.2)
    | none => substitute quar t taken

/-- The entries and moves of R79 for a Plat: a substitute that takes a role loses an IDLE entry of its own. -/
def Dev.substituted (d : Dev) (p : Plat) : List SeatEntry × List (Nat × Nat) :=
  let (es, moves) := substitute d.quar p.seating (takenSubst d.plt.serving p)
  (es.filter (fun e => !(e.role == 0 && moves.any (fun m => m.2 == e.seat))), moves)

/-- Substitutes in service for some moves: substitute tile, tile served. -/
def serve (moves : List (Nat × Nat)) (t : Tbl Nat) : Tbl Nat :=
  moves.foldl (fun t m => match denseSeat m.1, denseSeat m.2 with | some a, some b => tput t b a | _, _ => t) t

/-- R72 step 1 for one task: what has not started is cancelled; what runs ends muted and cancelled; a finished ENCODE task
appends nothing any more. A compression job (role 255) in a pipe is ended with the pipe. -/
def switchTask (runs : Bool) (t : Task) : Task :=
  if t.phase = .finished then { t with enc := none }
  else if t.idx.isNone then t
  else if runs then { t with mute := true, status := .cancelled, enc := none }
  else if t.role = 255 ∧ !t.phase.early then t
  else t.cancel .cancelled

/-- A task runs: on a seat, or in a bank of a matrix array. -/
def Dev.runs (d : Dev) (q uid : Nat) : Bool :=
  d.seats.any (fun e => match d.running e.1 with | some (k, t) => k == q && t.uid == uid | none => false)
    || d.mx.any (fun e => e.2.banks.any (fun b => b.q == q && b.uid == uid))

/-- R72 step 1 for the matching stores: what has not started is cancelled, what runs ends muted. CANCELLED of R100 counts every
task that so ends with that status (DESIGN CHOICE, log entry 88). -/
def Dev.cancelForSwitch (d : Dev) : Dev :=
  let d' := (List.range 8).foldl (fun (a : Dev) q =>
    let a := a.accrue q
    let x := a.quad q
    let n := (x.tasks.filter (fun t => t.phase != .finished && t.status != .cancelled && (switchTask (d.runs q t.uid) t).status == .cancelled)).length
    (if n = 0 then a else a.attAdd (attQ q 0x30) n).setQuad q { x with
      tasks := x.tasks.map (fun t => switchTask (d.runs q t.uid) t)
      held := x.held.filter (fun e => e.2.origin.isNone)
      inbound := x.inbound.filter (fun e => e.2.origin.isNone) }) d
  { d' with
    seats := d'.seats.map (fun (e : Nat × SeatSt) => (e.1, { e.2 with slots := e.2.slots.filter (fun u => d.runs u.1 u.2) }))
    tutors := d'.tutors.map (fun (e : Nat × TutorSt) => (e.1, { e.2 with queues := tdel e.2.queues 14 })) }

/-- R72 step 2: descriptors fetched or in flight that are no tasks yet complete with CANCELLED. -/
def Dev.cancelFetched (d0 d : Dev) : Dev :=
  let drop (d : Dev) (o : Origin) : Dev :=
    match d.plt.ringMap.find? (fun m => m.ring == o.ring) with
    | some m => d.laneItem m.quad m.lane o .finished .cancelled 0 0
    | none => d.complete o none .cancelled 0 0
  let flying := (List.range 8).flatMap (fun q => ((d0.quad q).held ++ (d0.quad q).inbound).filterMap (fun e =>
    e.2.origin.map (fun o => (o, q, e.2))))
  let d := flying.foldl (fun d e => match e.2.2.refused with
    | some (st, c, r) => d.laneItem e.2.1 (Pkt.lane e.2.2.pkt) e.1 .finished st c r
    | none => drop d e.1) d
  d.host.rings.foldl (fun d e =>
    if e.1 = 0 then d
    else
      let d := e.2.fetched.foldl (fun d f =>
        let b := f.desc.getD []
        drop d { ring := e.1, index := f.index, user := fld b 4 4, irq := bit (fld b 1 1) 1, op := fld b 0 1
                 serial := f.serial }) d
      d.setRing e.1 { d.ring e.1 with fetched := [] }) d

/-- R72 step 3: fragments and containers of the outgoing Plat are discarded. -/
def Dev.dropStaged (d : Dev) : Dev :=
  let cs := d.plt.containers
  let d := { d with plt := { d.plt with frags := [], armed := [], withdrawn := [], containers := [] } }
  (cs.foldl (fun d c => match c.2 with | some o => d.complete o none .cancelled 0 0 | none => d) d).wn (PLT + 0x38) 0

/-- A record keeps its contents at a switch (R72 step 4). -/
def preserved (old : List Alloc) (a : Alloc) : Bool :=
  bit a.flags 4 && old.any (fun o => o.id == a.id && o.kind == a.kind && o.base == a.base && o.size == a.size)

/-- The sets that a Plat brings take effect at the first seating, and all DRAM contents become undefined (R351). -/
def Dev.switchSets (d : Dev) (sec : Bytes) : Dev :=
  if d.rbit (MEM + 8) 0 then d
  else
    let d := d.wbit (MEM + 8) 0 true
    if sec.isEmpty then d else { ((d.formSets (sectionMasks sec)).scramble 0 SLATE) with lines := [] }

/-- The records of a new Plat whose contents a switch keeps; `lost` says that DRAM was laid out anew (R72 step 4, R351). -/
def Dev.keptAllocs (d : Dev) (new : List Alloc) (lost : Bool) : List Alloc :=
  let old := if lost then d.plt.allocs.filter (fun a => a.kind != 0) else d.plt.allocs
  new.filter (preserved old)

/-- R72 step 4: contents of the ranges. -/
def Dev.switchMemory (d : Dev) (new kept : List Alloc) : Dev :=
  let isKept (a : Alloc) : Bool := kept.any (fun k => k.id == a.id)
  let lose := (d.plt.allocs.filter (fun a => !isKept a)) ++ new.filter (fun a => !isKept a)
  let saved := kept.map (fun k => (k.base, d.mread k.base k.size))
  let d := lose.foldl (fun d a => d.scramble a.base a.size) d
  let d := saved.foldl (fun d s => if lose.any (fun a => a.base < s.1 + s.2.length && s.1 < a.base + a.size) then d.mwrite s.1 s.2 else d) d
  (new.filter (fun a => !isKept a && bit a.flags 2)).foldl (fun d a => d.mzero a.base a.size) d

/-- Seats and routes as a full Plat lays them, with the substitutions of R79; every epoch increments (R72 step 5). -/
def Dev.layPlat (d : Dev) (p : Plat) : Dev :=
  let (es, moves) := d.substituted p
  let d := if moves.isEmpty then d else d.pltFlag 6
  let d := { d with seats := (List.range 1302).map (fun s =>
    let x := d.seat s
    let e := (es.find? (fun (e : SeatEntry) => denseSeat e.seat == some s)).getD (idleEntry (seatRef s))
    (s, { x with role := e.role, pri := e.pri, drill := e.drill, subst := e.subst, params := e.params, opened := false,
                 epoch := (x.epoch + 1) % 256 })) }
  let routes := moves.foldl (fun rs m => rs.map (fun r => r.moveTo m.1 m.2 0)) p.routes
  { d with
    plt := { d.plt with
      seats := es, routes := sortRoutes (routes.map d.stamp), serving := serve moves [] } }

/-- R72 step 5: every seat takes its role and a new epoch; the field book starts empty. -/
def Dev.seatAll (d : Dev) (p : Plat) : Dev :=
  let d := d.layPlat p
  { d with
    plt := { d.plt with
      allocs := p.allocs, ringMap := p.ringMap
      claims := platClaims p.routes p, rotate := [], opening := [] }
    fb := { cols := sortBy (fun a b => a.1 ≤ b.1) (p.fieldBook.map (fun (e : FbEntry) => (e.column, e.col))), stale := true } }

/-- No tile of a quadrant is seated in a role. -/
def Dev.roleVacant (d : Dev) (q role : Nat) : Bool :=
  !d.plt.seats.any (fun x => x.role == role && match denseSeat x.seat with | some s => s / 144 == q && s < 1152 | none => false)

/-- A tile is quarantined (R78). -/
def Dev.quarantine (d : Dev) (t : Nat) : Dev := d.wbit (PLT + 0x100 + t / 32 * 4) (t % 32) true

/-- Tiles that failed in the ending step are quarantined (R78, R410). -/
def Dev.quarFailed (d : Dev) : Dev :=
  { d.plt.failedTiles.foldl Dev.quarantine d with plt := { d.plt with failedTiles := [] } }

/-- A tile that fails while a Plat is being seated is quarantined at once, and the seating takes it as failed at boot (R410). -/
def Dev.seatingFail (d : Dev) (t : Nat) : Dev := d.quarantine t

/-- Roles that no tile takes, since a tile failed during seating and had no free substitute (R410). -/
def Dev.vacancies (d : Dev) (p : Plat) : Dev :=
  p.seating.foldl (fun d e => match denseSeat e.seat with
    | some s => if s < 1152 ∧ d.quar s ∧ e.role ≠ 0 ∧ d.roleVacant (s / 144) e.role then d.pltFlag 7 else d
    | none => d) d

/-- Emission work that a switch cancels: every batch whose emission has not started completes empty with CANCELLED, in tag order
(R72 step 1); one dropped under SKIP has completed. -/
def EmitSt.switched (e : EmitSt) : EmitSt :=
  let rest := (e.batches.map (·.tag)).filter (fun b => !e.due.any (fun x => x.1 == b) && !e.dropTags.contains b)
  rest.foldl (fun e b => e.addDue (b, false, some .cancelled))
    { e with batches := [], due := e.due.map (fun x => (x.1, x.2.1, some .cancelled)), dropTags := [] }

/-- Complete the emissions of one stream that have started, and those that are due, on the outgoing routes (R37, R72). -/
def finishStream (n : Nat) : Nat → Dev → Dev
  | 0, d => d
  | f + 1, d =>
    let e := d.emitSt n
    match e.cur with
    | some m => if m.sentAll then d else finishStream n f (d.emissionEnd n)
    | none => if e.due.isEmpty then d else finishStream n f (d.tryEmit n)

/-- R72 step 1 for emissions; what waits for a host buffer keeps the bytes it has. -/
def Dev.emissionsForSwitch (d : Dev) : Dev :=
  let d := { d with emits := d.emits.map (fun (e : Nat × EmitSt) => (e.1, e.2.switched)) }
  let d := d.emits.foldl (fun (d : Dev) (e : Nat × EmitSt) => finishStream e.1 (2 * e.2.due.length + 2) d) d
  let ds := d.host.deliveries.map (fun (x : Delivery) => { x with head := x.head ++ d.mread x.addr x.length, addr := 0, length := 0 })
  { d with host := { d.host with deliveries := ds } }

/-- Seating of a full Plat begins (R72 steps 1 to 3); `atBell` tells a switch bell from a seating at once. Steps 4 and 5 wait
for the last running task, which writes under the outgoing Plat (log entry 79). -/
def Dev.beginSeating (d : Dev) (p : Plat) (o : Option Origin) (atBell : Bool) : Dev :=
  let d := (d.emissionsForSwitch.updSwitch atBell).cmpSwitch
  let d := ((Dev.cancelFetched d d.cancelForSwitch).dropStaged).quarFailed
  let d := { d with seats := d.seats.map (fun (e : Nat × SeatSt) => (e.1, { e.2 with opened := false }))
                    plt := { d.plt with seating := true, incoming := some (p, o), staged := none, opening := [] } }
  d.wn2 (PLT + 0x10) 0

/-- R72 steps 4 and 5: ranges, tensor descriptors and seat work of the outgoing Plat go, and the incoming one takes every seat;
entries of the matching stores that name a seat are stale (R97). The records kept are answered (R176). -/
def Dev.switchOver (d : Dev) (p : Plat) : Dev × List Alloc :=
  let fresh := !p.interleave.isEmpty && !d.rbit (MEM + 8) 0
  let kept := d.keptAllocs p.allocs fresh
  let d := (((d.switchSets p.interleave).switchMemory p.allocs kept).tdSwitch kept).clearSeatWork kept p
  let d := (d.seatAll p).vacancies p
  ((List.range 8).foldl (fun d q => d.sweep q (List.range 1302)) d, kept)

/-- Load or halt the tutor of a seat as its entry says (R65, R66). -/
def Dev.drillSeat (d : Dev) (s : Nat) (g : Option Drill) : Dev :=
  match seatTutor s with
  | none => d
  | some t => match g with
    | some g => d.loadDrill t g
    | none => if (d.tutor t).mode = .halted then d else d.halt t

/-- Whether some seat still runs a task, or a bank of a matrix array holds one. -/
def Dev.anyRunning (d : Dev) : Bool :=
  d.seats.any (fun e => (d.running e.1).isSome) || d.mx.any (fun e => !e.2.banks.isEmpty)

/-- The end of seating but for the REGISTERS section (R72): drills are loaded, seats open, schedulers are enabled. -/
def Dev.openSeats (d : Dev) (p : Plat) : Dev :=
  let d := d.tutors.foldl (fun d e => if e.2.mode = .halted then d else d.halt e.1) d
  let d := d.plt.seats.foldl (fun d e => match denseSeat e.seat, e.image with
    | some s, some g => d.drillSeat s (some g)
    | _, _ => d) d
  let d := p.loads.foldl (fun d l => match denseTutor l.1, p.drills.find? (fun g => g.index == l.2) with
    | some t, some g => d.loadDrill t g
    | _, _ => d) d
  let d := { d with seats := d.seats.map (fun e => (e.1, { e.2 with opened := true })) }
  (List.range 8).foldl (fun d q => d.wbit (qdrReg q 0) 0 true) d

/-- Registers of the seated Plat (R83). -/
def Dev.platRegs (d : Dev) (p : Plat) : Dev :=
  let d := (((d.wn2 (PLT + 8) p.id).wn2 (PLT + 0x18) d.step).wn (PLT + 0x24) p.replicaBudget)
  (d.wn2 (PLT + 0x28) p.streamBytes).wn2 (PLT + 0x30) p.peerBytes

/-! Re-seating at a bell (R74 to R80) -/

/-- An Ethernet port that is seated IDLE is not in use: its link goes down (R55). -/
def Dev.idlePort (d : Dev) (s : Nat) : Dev :=
  if 1300 ≤ s then (d.wbit (ethReg (s - 1300) 0) 31 false).ethLinkDown (s - 1300) else d

/-- Re-seat one seat at a bell; its epoch increments once at that bell (R76). DESIGN CHOICE (log entry 81): RESEAT_BUSY reads 1
while any re-seated seat is closed, one that R80 alone re-seated included. -/
def Dev.reseat (d : Dev) (done : List Nat) (s : Nat) (e : SeatEntry) : Dev × List Nat :=
  let d := d.seatAs s e (!done.contains s)
  let d := if e.role = 0 then d.idlePort s else d
  ({ d with plt := { d.plt with
      opening := tput d.plt.opening s e.image
      seats := (d.plt.seats.filter (fun x => x.seat != e.seat)) ++ (if e.role = 0 then [] else [e]) } },
   if done.contains s then done else s :: done)

/-- R80 and R410 for one tile that failed: quarantined, seated IDLE, its substitute in its place if there is one. -/
def Dev.reseatFailed (d : Dev) (done : List Nat) (t : Nat) : Dev × List Nat :=
  let d := d.quarantine t
  let ref := tileId t
  match d.plt.seats.find? (fun e => e.seat == ref) with
  | none => d.reseat done t (idleEntry ref)
  | some e =>
    let (d, done) := d.reseat done t (idleEntry ref)
    let d := { d with plt := { d.plt with serving := tdel d.plt.serving t } }
    let free := match denseSeat e.subst with
      | some u => if e.subst ≠ 0xFFFF ∧ d.rbit PLT 1 ∧ !d.quar u ∧ (d.seat u).role = 0 ∧ (tfind d.plt.serving u).isNone then some u else none
      | none => none
    match free with
    | some u =>
      let (d, done) := d.reseat done u { e with seat := e.subst, subst := 0xFFFF }
      let ep := (d.seat u).epoch
      ({ d with plt := { d.plt with serving := tput d.plt.serving u t,
                                    routes := d.plt.routes.map (fun (r : Route) => r.moveTo ref e.subst ep) } }.pltFlag 6, done)
    | none =>
      (if d.roleVacant (t / 144) e.role then d.pltFlag 7 else d, done)

/-- A PLAT event to ring 2 (R75, R155). -/
def Dev.platEvent (d : Dev) (st : Status) (sec entry frag bits26 : Nat) : Dev :=
  d.offer 2 4 0 false (leB 1 st.code ++ leB 1 0 ++ leB 2 sec ++ leB 4 entry ++ leB 2 frag ++ leB 1 bits26)

/-- Field-book entries of a fragment (R458): the columns' banks, open tags and earlier records go. -/
def Dev.fragColumns (d : Dev) (p : Plat) : Dev :=
  p.fieldBook.foldl (fun d e =>
    let banks := (List.range 4).foldl (fun b i => tdel b (e.column * 4 + i)) d.fb.banks
    let void := match tfind d.fb.cols e.column with
      | some c => c.void ++ (d.fbTags c.unit c.stream).opened.map (·.1)
      | none => []
    { d with fb := { d.fb with cols := tput d.fb.cols e.column { e.col with void }, banks, past := tdel d.fb.past e.column } }) d

/-- Substitutes of tiles that a fragment names give up what they took for them: they are seated IDLE, unless it seats
them (DESIGN CHOICE, log entry 83). -/
def Dev.releaseSubst (d : Dev) (done : List Nat) (p : Plat) : Dev × List Nat :=
  let named (t : Nat) : Bool := p.seating.any (fun e => denseSeat e.seat == some t)
  let gone := d.plt.serving.filter (fun e => named e.1 || named e.2)
  let d := { d with plt := { d.plt with serving := d.plt.serving.filter (fun e => !(named e.1 || named e.2)) } }
  gone.foldl (fun (a : Dev × List Nat) e => a.1.reseat a.2 e.1 (idleEntry (tileId e.1))) (d, done)

/-- A fragment's DECODE seats seat their channel: one that was unused, or whose parameter block is another now (R180, log entry
93). -/
def Dev.fragChannels (d : Dev) (es : List SeatEntry) : Dev :=
  (es.filter (fun e => e.role == 1)).foldl (fun d e =>
    let c := fld e.params 0 1
    if (d.ich c).params = e.params then d
    else (d.leaveIch c).seatIch e.params (((denseSeat e.seat).bind seatQuad).getD 0) true) d

/-- Apply one armed fragment at the bell, entirely or not at all (R75, R77). -/
def Dev.applyFrag (d : Dev) (done : List Nat) (id : Nat) : Dev × List Nat :=
  match tfind d.plt.frags id with
  | none => ((d.pltFlag 4).platEvent .descInvalid 0 0xFFFFFFFF id 2, done)
  | some p =>
    match platFields d p.raw p with
    | some e => ((d.pltFlag 5).platEvent e.status e.section_ e.entry id 1, done)
    | none =>
      let (d, done) := d.releaseSubst done p
      let (es, moves) := d.substituted p
      let d := if moves.isEmpty then d else d.pltFlag 6
      let (d, done) := ((moves.map (fun m => idleEntry m.1)) ++ es).foldl (fun (a : Dev × List Nat) e => match denseSeat e.seat with
        | some s => a.1.reseat a.2 s e
        | none => a) (d, done)
      let laid := moves.foldl (fun rs m => rs.map (fun r => r.moveTo m.1 m.2 0)) (p.routes.filter (fun r => !r.retire))
      let kept := d.plt.routes.filter (fun r => !p.routes.any (fun n => n.id == r.id))
      let d := { d with plt := { d.plt with routes := sortRoutes (kept ++ laid.map d.stamp), serving := serve moves d.plt.serving } }
      ((((d.fragColumns p).fragChannels es).reseatJoins es).bump (PLT + 0x20), done)

/-- Fragments armed for this bell: by timetable entries in ascending index, then by ring 0; each once, at its first
arming (R76). -/
def armedOrder (l : List (Option Nat × Nat)) : List Nat :=
  dedup ((sortBy (fun a b => a.1.getD 256 ≤ b.1.getD 256) l).map (·.2))

/-- Re-seating at a bell that is no switch bell (R76, R77, R97). -/
def Dev.reseatBell (d : Dev) : Dev :=
  let failed := sortBy (fun a b => a ≤ b) (dedup d.plt.failedTiles)
  let ids := armedOrder d.plt.armed
  let d := d.quarFailed
  let (d, done) := failed.foldl (fun (a : Dev × List Nat) t => a.1.reseatFailed a.2 t) (d, [])
  let (d, done) := ids.foldl (fun (a : Dev × List Nat) i => a.1.applyFrag a.2 i) (d, done)
  let gone := d.plt.withdrawn
  let d := { d with plt := { d.plt with armed := [], withdrawn := [], frags := d.plt.frags.filter (fun f => !gone.contains f.1) } }
  let d := d.wn (PLT + 0x38) d.plt.frags.length
  (List.range 8).foldl (fun d q =>
    let mine := done.filter (fun s => match seatQuad s with | some k => k == q | none => true)
    if mine.isEmpty then d else d.sweep q mine) d

/-- Drill image containers at the first bell after they were verified (R66). -/
def Dev.applyContainers (d : Dev) : Dev :=
  let cs := d.plt.containers
  let d := { d with plt := { d.plt with containers := [] } }
  cs.foldl (fun d c =>
    let d := c.1.loads.foldl (fun d l => match denseTutor l.1, c.1.drills.find? (fun g => g.index == l.2) with
      | some t, some g => d.loadDrill t g
      | _, _ => d) d
    match c.2 with | some o => d.complete o none .ok 0 0 | none => d) d

/-- RESEAT_OPEN (R77): a re-seated seat whose old task has ended loads its drill and opens. -/
def Dev.openSeat (d : Dev) (s : Nat) : Dev :=
  match tfind d.plt.opening s with
  | none => d
  | some g =>
    if !(d.seat s).slots.isEmpty then d
    else
      let d := { d with plt := { d.plt with opening := tdel d.plt.opening s } }
      let d := d.drillSeat s g
      let d := if 1300 ≤ s ∧ (d.seat s).role = 15 ∧ !(d.eth (s - 1300)).failed then d.wbit (ethReg (s - 1300) 0) 31 true else d
      d.setSeat s { d.seat s with opened := true }

/-- A PLAT_LOAD whose Plat passed its checks (R71, R73, R74, R150). -/
def Dev.acceptPlat (d : Dev) (p : Plat) (o : Origin) : Dev :=
  match p.kind with
  | 0 =>
    let old := d.plt.staged
    let d := match old with | some (_, some o') => d.complete o' none .cancelled 0 0 | _ => d
    if !d.plt.seating && (!d.plt.seated || (!d.rbit PLT 2 && !d.rbit PHT 31)) then
      let d := d.beginSeating p (some o) false
      { d with plt := { d.plt with ringWait := true } }
    else ({ d with plt := { d.plt with staged := some (p, some o) } }).wn2 (PLT + 0x10) p.id
  | 1 =>
    if (tfind d.plt.frags p.fragId).isNone ∧ 64 ≤ d.plt.frags.length then d.complete o none .descInvalid 0 p.fragId
    else
      let d := { d with plt := { d.plt with frags := tput d.plt.frags p.fragId p } }
      (d.wn (PLT + 0x38) d.plt.frags.length).complete o none .ok 0 p.fragId
  | _ => { d with plt := { d.plt with containers := d.plt.containers ++ [(p, some o)] } }

/-- PLT_STATUS.STATE (R83). -/
def Dev.pltState (d : Dev) : Nat :=
  if d.plt.seating then 3 else if d.plt.staged.isSome then 2 else if d.plt.seated then 1 else 0

end Sys2Proof.Machine
end

