-- ==== Sys2Proof/Machine/Release.lean ====
section
/-! DEFINITION. The release of finished tasks, the answers they wait for, and tiles that fail in mid-step (R93, R384,
R408 to R410). -/
namespace Sys2Proof.Machine

/-! Release (R93) -/

/-- A released task has its completion posted and leaves its lane. -/
def Dev.endTask (d : Dev) (q : Nat) (t : Task) : Dev :=
  let d := if t.tag = BitVec.allOnes 48 ∧ t.role ≠ 0 ∧ t.role ≠ 15 ∧ t.role ≠ 255 then d.lookupFail t.arg t.status else d
  let d := d.postTask q t
  let x := d.quad q
  ((d.setQuad q { x with tasks := x.tasks.filter (fun u => u.uid != t.uid) }).promote q).closeByDispatch q

/-- Send the results of a task, none for a muted one: the state after, the messages that await an ACK, the first failure. -/
def Dev.sendResults (d : Dev) (q : Nat) (t : Task) : Dev × List Nat × Option Status :=
  if t.mute then (d, [], none)
  else t.results.foldl (fun (a : Dev × List Nat × Option Status) x =>
    let x := if t.tag = BitVec.allOnes 48 ∧ x.arg.isNone then { x with arg := some t.arg } else x
    let from_ := x.from_.getD t.on
    let r := Dev.sendResult a.1 q t.uid from_ (if from_ = t.on then t.routes else a.1.routesFrom (seatRef from_)) t.tag x
    (r.1, a.2.1 ++ r.2.1, if a.2.2.isSome then a.2.2 else r.2.2)) (d, [], none)

/-- A status that a later failure replaces: OK or a mark (R154). -/
def Status.passing (s : Status) : Bool := s == .ok || s == .late || s == .corruptSample || s == .substituted

def Status.or (s : Status) (o : Option Status) : Status :=
  match o with | some f => if s.passing ∧ f ≠ .ok then f else s | none => s

/-- RESULT_RELEASE (R93): the next finished task releases its results, appends its tokens (R40), and is completed once every
message it sent has been answered. -/
def Dev.release (d : Dev) (q : Nat) : Dev :=
  match nextRelease [] (d.quad q).tasks with
  | none => d
  | some t =>
    let (d, acks, st) := d.sendResults q t
    let close := ((t.operand 0).map Pkt.length).getD 0 == 0
    let (d, full) := match t.enc with | some o => if t.mute then (d, none) else d.appendTokens t.tag o close | none => (d, none)
    let t := { t with released := true, acks, status := (t.status.or st).or full, enc := none, rob := false }
    let d := d.updTask q t.uid (fun _ => t)
    if acks.isEmpty then d.endTask q t else d

/-- A message of a released task is answered or lost (R384). -/
def Dev.resultAnswer (d : Dev) (q uid id : Nat) (st : Status) : Dev :=
  let d := d.updTask q uid (fun t => { t with acks := t.acks.filter (· != id), status := t.status.or (some st) })
  match d.task q uid with
  | some t => if t.released ∧ t.acks.isEmpty then d.endTask q t else d
  | none => d

/-- An answer, or its absence, reaches whoever waits for it (R384). -/
def Dev.answered (d : Dev) (id : Nat) (st : Status) : OutKind → Dev
  | .result q uid => d.resultAnswer q uid id st
  | .emission n => d.emissionDone n
  | .update q uid => d.updAnswer q uid id st
  | .read c => d.readAnswer c id st false []

/-- ACK (R384): the oldest acknowledgement delivered here. A read request is not answered by one. -/
def Dev.ackIn (d : Dev) : Dev :=
  match d.takeMsg 3 with
  | none => d
  | some (m, d) =>
    match d.endWait m.id with
    | some (.read _, _) => d
    | some (w, d) => d.answered m.id (Status.ofCode (fld m.data 0 1)) w
    | none => d

/-- REQUEST_TIMEOUT (R384): a message has gone unanswered for REQ_TMO. -/
def Dev.requestTimeout (d : Dev) (id : Nat) : Dev :=
  match d.fab.waits.find? (fun w => w.1 == id) with
  | none => d
  | some (_, why, since) =>
    if d.now < since + d.reqTmo then d
    else match d.endWait id with
      | none => d
      | some (_, d) =>
        let st : Status := match why with | .result _ _ => .linkDown | .emission _ => .linkDown | _ => .homeUnreachable
        (d.bump (LNK + 0x38)).answered id st why

/-! Tiles that fail in mid-step (R408 to R410) -/

/-- A task of an aborted tag ends at once and sends nothing (R408 step 2). -/
def Task.abort (t : Task) : Task :=
  { t with phase := .finished, mute := true, status := .abortedStep, enc := none, results := [], acks := [] }

/-- Tasks that R408 aborts: of the tags of T, not cancelled before. -/
def Task.aborts (tags : List Tag) (t : Task) : Bool :=
  tags.contains t.tag && (t.idx.isSome || t.role == 255) && !(t.phase == .finished && t.mute)

/-- Everything that refers to an aborted task lets go of it: its seat, its accumulator bank, its gather, its job. The bytes
it has written are unspecified. -/
def Dev.abortTask (d : Dev) (q : Nat) (t : Task) : Dev :=
  let d := t.results.foldl (fun d r => d.scramble r.payload r.length) d
  let s := t.on
  let d := if (d.seat s).slots.contains (q, t.uid) then
      let run := match d.running s with | some (k, u) => k == q && u.uid == t.uid | none => false
      let d := if run then d.stopRun s else d
      d.setSeat s { d.seat s with slots := (d.seat s).slots.filter (fun e => !(e.1 == q && e.2 == t.uid)) }
    else d
  let d := if d.mx.any (fun e => e.2.banks.any (fun b => b.q == q && b.uid == t.uid)) then
      { d with mx := d.mx.map (fun (e : Nat × MxSt) => (e.1, { e.2 with banks := e.2.banks.filter (fun b => !(b.q == q && b.uid == t.uid)) })) }
    else d
  let d := if d.emb.gathers.any (fun e => e.2.q == q && e.2.uid == t.uid) then
      { d with emb := { d.emb with gathers := d.emb.gathers.filter (fun e => !(e.2.q == q && e.2.uid == t.uid)) } }
    else d
  let d := if d.ichs.any (fun e => e.2.quad == q && (e.2.work.map (·.uid)) == some t.uid) then
      { d with ichs := d.ichs.map (fun (e : Nat × IchSt) =>
          if e.2.quad = q ∧ (e.2.work.map (·.uid)) = some t.uid then (e.1, { e.2 with work := none }) else e) }
    else d
  if t.role = 255 then
    let x := d.pipe q (Job.pack t.params)
    let mine (j : CmpJob) : Bool := j.src == .ring t.uid
    let d := match d.alloc (Job.outAlloc t.params) with
      | some o => if x.run.any mine then d.scramble (o.base + Job.outOfs t.params) (min (Job.outCap t.params) (o.size - Job.outOfs t.params)) else d
      | none => d
    d.setPipe q (Job.pack t.params) { x with ring := x.ring.filter (fun j => !mine j), run := if x.run.any mine then none else x.run }
  else d

/-- R408 step 2 in one quadrant. -/
def Dev.abortQuad (d : Dev) (tags : List Tag) (q : Nat) : Dev :=
  let d := d.accrue q
  let hit := (d.quad q).tasks.filter (Task.aborts tags)
  let d := hit.foldl (fun d t => d.abortTask q t) d
  let d := hit.foldl (fun d t =>
    if t.tag = BitVec.allOnes 48 ∧ (tfind (d.eth (bits t.arg 12 12)).slots (bits t.arg 11 0)).isSome
        ∧ !(d.eth (bits t.arg 12 12)).late.contains (bits t.arg 11 0)
    then d.lookupEnd (bits t.arg 12 12) (bits t.arg 11 0) .abortedStep [] else d) d
  let x := d.quad q
  (d.setQuad q { x with tasks := x.tasks.map (fun t => if t.aborts tags then t.abort else t) }).promote q

/-- TILE_FAIL (R408, R134): the tasks of the affected tags and the emissions of the step end with ABORTED_STEP. A tile that has
failed before does not fail again. -/
def Dev.tileFail (d : Dev) (t detail addr : Nat) : Dev :=
  if detail = 0 ∨ d.rbit (tilReg t 0xE0) 31 then d
  else
    let tags := dedup ((d.seat t).slots.filterMap (fun u => (d.task u.1 u.2).map (·.tag)))
    let d := (List.range 8).foldl (fun d q => d.abortQuad tags q) d
    let d := (d.stopRun t)
    let d := (d.setSeat t { d.seat t with opened := false, slots := [] }).setMx t {}
    let d := { d with
      flt := { d.flt with stepAborted := true, aborted := dedup (d.flt.aborted ++ tags) }
      emits := d.emits.map (fun (e : Nat × EmitSt) => (e.1, { e.2 with cur := e.2.cur.map (fun (m : Emission) =>
        if m.sentAll then m else { m with status := .abortedStep }) }))
      plt := { d.plt with failedTiles := d.plt.failedTiles ++ [t] } }
    let d := tags.foldl (fun d b => d.abortTag b) d
    let d := (((d.wn (tilReg t 0xE0) (2 ^ 31 + detail)).wn2 (tilReg t 0xE4) (if detail = 1 then addr else 0)).wn2
      (tilReg t 0xEC) d.step).wn (tilReg t 0xF4) tags.length
    let d := (d.faults [(13, { aborted := tags.length }), (128 + t / 16, { unit := tileId t, detail, addr })]).bump (FLT + 0x30)
    if d.plt.seating then { (d.seatingFail t) with plt := { d.plt with failedTiles := d.plt.failedTiles.filter (· != t) } } else d

end Sys2Proof.Machine
end

