-- ==== Sys2Proof/Machine/Timetable.lean ====
section
/-! DEFINITION. Pins and their roles, and what timetable entries do when they fire (R31 to R34, R449 to R454, R459). -/
namespace Sys2Proof.Machine

/-! Pins (R450 to R454): 0 STEP_IN, 1 STEP_OUT, 2 AUX_IN, 3 to 6 GPIO_0 to GPIO_3 -/

def pinCfg (k : Nat) : Nat := GLB + 0x108 + (k - 2) * 4

/-- The role a pin holds: 0 none, 1 STEP_SOURCE, 2 CAPTURE, 3 GPIO_IN, 4 GPIO_OUT. -/
def Dev.pinRole (d : Dev) (k : Nat) : Nat := d.rf (pinCfg k) 30 28
def Dev.pinReq (d : Dev) (k : Nat) : Nat := d.rf (pinCfg k) 2 0
def Dev.pinConflict (d : Dev) (k : Nat) : Dev := d.wbit (pinCfg k) 31 true

/-- What a pin that holds GPIO_OUT drives is reported when it changes. -/
def Dev.drivePin (d : Dev) (k : Nat) (was level : Bool) : Dev := if was = level then d else d.emit (.pin k level)

/-- LEVEL of a pin is written: a pulse in progress ends (R453). -/
def Dev.setLevel (d : Dev) (k : Nat) (level : Bool) : Dev :=
  let was := d.rbit (pinCfg k) 8
  let d : Dev := { (d.wbit (pinCfg k) 8 level) with pulses := tdel d.pulses k }
  if d.pinRole k = 4 then d.drivePin k was level else d

/-- Roles granted from the requests of now (R451), pins 2 to 6. -/
def Dev.grants (d : Dev) : Nat → Nat :=
  let source := d.rbit (PHT + 4) 2
  let cap := (List.range 5).find? (fun i => d.pinReq (i + 2) == 1 && !(i == 0 && source))
  fun k =>
    if k = 2 ∧ source then 1
    else if cap = some (k - 2) then 2
    else if 3 ≤ k ∧ (d.pinReq k = 2 ∨ d.pinReq k = 3) then d.pinReq k + 1
    else 0

/-- One pin takes its granted role; a request that is not granted sets CONFLICT, and a pin that loses GPIO_OUT ends its
pulse. -/
def Dev.grantPin (d : Dev) (k role : Nat) : Dev :=
  let req := d.pinReq k
  let d := if req ≠ 0 ∧ role ≠ req + 1 then d.pinConflict k else d
  let was := d.pinRole k
  if was = role then d
  else
    let level := d.rbit (pinCfg k) 8
    let d := if was = 4 then
        let d := if (tfind d.pulses k).isSome then { (d.wbit (pinCfg k) 8 false) with pulses := tdel d.pulses k } else d
        d.drivePin k level false
      else d
    let d := d.wf (pinCfg k) 30 28 role
    if role = 4 then d.drivePin k false (d.rbit (pinCfg k) 8) else d

/-- PIN_ROLE_GRANT (R451): CAP_PIN names the pin that holds CAPTURE. -/
def Dev.grantRoles (d : Dev) : Dev :=
  let g := d.grants
  let d := (List.range 5).foldl (fun d i => d.grantPin (i + 2) (g (i + 2))) d
  let cap := (List.range 5).find? (fun i => g (i + 2) == 2)
  d.wf (GLB + 0x104) 6 4 (match cap with | some i => i + 2 | none => 0)

/-- A timestamp capture (R452). -/
def Dev.capture (d : Dev) : Dev :=
  let was := d.rbit (GLB + 0x104) 0
  let d := (((d.wn2 (PHT + 0x44) d.step).wn (PHT + 0x4C) d.phase).wn (PHT + 0x50) d.now).wbit (GLB + 0x104) 0 true
  if was then d.wbit (GLB + 0x104) 1 true else d

/-- A read of PHT_AUX_CAP_TB clears CAP_NEW (R452). -/
def Dev.readCapTb (d : Dev) : Dev := d.wbit (GLB + 0x104) 0 false

/-- The level that an edge leaves at a pin. -/
def Dev.pinEdge (d : Dev) (k : Nat) (falling : Bool) : Dev := d.wbit (GLB + 0x100) k (!falling)

/-- An edge at a GPIO pin (R450, R452). -/
def Dev.gpioEdge (d : Dev) (k : Nat) (falling : Bool) : Dev :=
  let d := d.pinEdge k falling
  if d.pinRole k = 2 ∧ falling = d.rbit (pinCfg k) 9 then d.capture else d

/-- GPIO_DRIVE (R453): mode 0 low, 1 high, 2 a pulse of 400 cycles; the timetable names no other mode. -/
def Dev.gpioDrive (d : Dev) (k mode : Nat) : Dev :=
  if d.pinRole k ≠ 4 then d.pinConflict k
  else if mode ≤ 1 then d.setLevel k (mode == 1)
  else if mode = 2 then { (d.setLevel k true) with pulses := tput d.pulses k (d.now + 400) }
  else d

/-- GPIO_PULSE_END (R453). -/
def Dev.pulseEnd (d : Dev) (k : Nat) : Dev :=
  match tfind d.pulses k with
  | some t => if t ≤ d.now then d.setLevel k false else d
  | none => d

/-- The STEP_OUT pulse of an accepted bell (R449). -/
def Dev.stepOut (d : Dev) : Dev :=
  let high := d.pht.stepOutUntil.isSome
  let d : Dev := { d with pht := { d.pht with stepOutUntil := some (d.now + 2 + 400) } }
  if high then d else d.emit (.stepOut true)

/-- STEP_OUT_PULSE_END (R449). -/
def Dev.stepOutEnd (d : Dev) : Dev :=
  match d.pht.stepOutUntil with
  | some t => if t ≤ d.now then { (d.emit (.stepOut false)) with pht := { d.pht with stepOutUntil := none } } else d
  | none => d

/-! Timetable actions (R33) -/

/-- The tutor that a SIGNAL_DRILL names. -/
def signalTutor (arg : Nat) : Option Nat := denseTutor (bits arg 13 12 * 0x1000 + bits arg 10 0)

/-- The action of an entry whose target is t. -/
def Dev.ttAction (d : Dev) (n : Nat) (t : Tag) (late : Bool) : Dev :=
  let arg := d.rn (ttbEnt n 8)
  match d.rf (ttbEnt n 4) 23 16 with
  | 1 =>
    let s := bits arg 5 0
    d.fireEmit s (t + BitVec.ofNat 48 (d.rf (ttbEmitCfg s) 26 24)) late
  | 2 => d.snapshot
  | 3 => d.armSwap (bits arg 3 0)
  | 4 => { d with plt := { d.plt with armed := d.plt.armed ++ [(some n, bits arg 15 0)] } }
  | 5 => d.refreshFire (bits arg 7 0)
  | 6 => match signalTutor arg with | some u => d.raise u (16 + bits arg 19 16) | none => d
  | 7 => d.offer (bits arg 13 0) 1 n false (leB 4 arg ++ leB 1 (b2n late))
  | 8 => d.gpioDrive (3 + bits arg 1 0) (bits arg 9 8)
  | 9 => d.pfcPause arg
  | 10 => d.armTerms
  | _ => d

/-- An entry fires. -/
def Dev.ttFire (d : Dev) (n : Nat) (late atBell : Bool) : Dev := (d.ttAction n (d.ttTarget n) late).ttFired n late atBell

/-- TTB_ENTRY_FIRE (R29, R33): an entry that has come due fires, unless one due before it has yet to. -/
def Dev.ttEntryFire (d : Dev) (n : Nat) : Dev :=
  let before (m : Nat) : Bool := d.ttOnTime m && (d.ttPhase m < d.ttPhase n || (d.ttPhase m == d.ttPhase n && m < n))
  if d.ttOnTime n && !(List.range 256).any before then d.ttFire n false false else d

/-- Entries that satisfy a test fire late, in ascending index (R34, R459). -/
def Dev.lateFires (d : Dev) (atBell : Bool) (p : Dev → Nat → Bool) : Dev :=
  ((List.range 256).filter (p d)).foldl (fun d n => d.ttFire n true atBell) d

/-- Late entries at a bell (R34). -/
def Dev.bellFires (d : Dev) : Dev :=
  if d.rbit TTB 31 then d.lateFires true (fun d n => d.ttValid n && tagEarlier (d.ttTarget n) d.pht.step) else d

/-- A write of word B of an entry (R31, R32, R34). -/
def Dev.ttWriteB (d : Dev) (n v : Nat) : Dev :=
  let (d, armed) := d.writeB n v
  if armed && d.rbit TTB 31 && d.ttDue n then d.ttFire n true false else d

/-- TTB_CTL.ENABLE is written (R459). -/
def Dev.ttEnable (d : Dev) (on : Bool) : Dev :=
  let was := d.rbit TTB 31
  let d := d.wbit TTB 31 on
  if on && !was then d.lateFires false (fun d n => d.ttDue n) else d

end Sys2Proof.Machine
end

