-- ==== Sys2Proof/Machine/Bell.lean ====
section
/-! DEFINITION. What an accepted bell does, in the order of R48, and where bells come from (R23 to R30). -/
namespace Sys2Proof.Machine

/-- The BELL event reaches every tutor (R106): tutors from number i on, as many as the fuel. -/
def bellTutors : Nat → Nat → Tbl TutorSt → Tbl TutorSt
  | 0, _, t => t
  | n + 1, i, [] => (i, { events := 1 }) :: bellTutors n (i + 1) []
  | n + 1, i, (k, x) :: t =>
    if k = i then (k, { x with events := x.events ||| 1 }) :: bellTutors n (i + 1) t
    else (i, { events := 1 }) :: bellTutors n (i + 1) ((k, x) :: t)

/-- Work of cycle 1 on the Plat: a switch bell seats what is staged; any other re-seats and applies containers (R71 to R77). -/
def Dev.platBell (d : Dev) : Dev :=
  if d.plt.seating then d.quarFailed
  else match d.plt.staged with
    | some (p, o) => if d.rbit PLT 2 then (d.reseatBell).applyContainers else d.beginSeating p o true
    | none => if d.plt.seated then (d.reseatBell).applyContainers else d.quarFailed

/-- Cycle 1 (R48): the step counter, the latches, updates and re-seating; sampling count T_k and the origin of E. -/
def Dev.bellLatch (d : Dev) (src : Nat) (step : Tag) (tk origin : Nat) : Dev :=
  let ending := d.pht.step
  let d := d.setActive src
  let held := if d.pht.mode = .holdover then some tk else none
  let pht : Pht := { d.pht with step, lastAcc := some tk, origin := some origin, examined := false }
  let d : Dev := { d with pht := { pht with activeSeen := false, heldAt := held } }
  let d := ((d.attLatch ending).fbLatch).updBell
  let d := ((d.platBell).streamBell).ichBells
  { d with flt := { d.flt with stepAborted := false } }

/-- Cycle 2 (R48): the loop, STEP_OUT, the bell message, the BELL event; then what the new step releases, and late entries. -/
def Dev.bellAct (d : Dev) (tk : Nat) : Dev :=
  let d := if d.pht.mode = .holdover then d else d.wr (PHT + 0x3C) (residWord (d.pht.residual tk))
  let d : Dev := { d with pht := d.pht.update d.loopCfg tk }
  let d := if d.rbit PHT 10 then d.stepOut else d
  let d := if d.rbit PHT 11 then d.broadcastBell else d
  let d : Dev := { d with tutors := bellTutors 1238 0 d.tutors }
  let d := (List.range 8).foldl (fun d q => d.promote q) d
  d.bellFires

/-- An accepted bell (R48). -/
def Dev.acceptBell (d : Dev) (src : Nat) (step : Tag) (jump : Bool) (tk origin : Nat) : Dev :=
  let d := d.bellLatch src step tk origin
  let d := if jump then (d.phtFlag 3).fault 12 else d
  d.bellAct tk

/-- A bell of a source is sampled now (R24 to R27). -/
def Dev.bellIn (d : Dev) (src : Nat) (count : Option Tag) : Dev :=
  match d.judge src count with
  | .ignored => d
  | .shadow => d.shadowBell src
  | .runt => d.runt.sampled src
  | .dup => (d.phtFlag 4).sampled src
  | .switch => (d.setActive src).sampled src
  | .accept step jump => d.acceptBell src step jump d.now (d.now + 1)

/-- The examination ends without a bell (R27, R30): a TRACKING tracker enters HOLDOVER. -/
def Dev.noBell (d : Dev) : Dev :=
  let d : Dev := { d with pht := { d.pht with examined := true } }
  if d.pht.mode = .tracking then ({ d with pht := { d.pht with mode := .holdover, holdSince := d.now } }).fault 10 else d

/-- LOCK_WINDOW_EXPIRY (R27, R30): a shadow bell is adopted, or a TRACKING tracker enters HOLDOVER, or nothing changes. An
adopted bell within PHT_MIN_GAP of the last accepted one is a runt (R25), after which there is no bell (log entry 75). -/
def Dev.lockExpire (d : Dev) : Dev :=
  if !d.rbit PHT 31 || !d.hasPrediction || !d.windowPassed || d.pht.examined || d.pht.activeSeen then d
  else match d.adoptable with
    | some (src, t) => if d.tooSoonAt t then d.runt.noBell else d.acceptBell src (d.pht.step + 1) false t d.now
    | none => d.noBell

/-- An edge at STEP_IN (R24). -/
def Dev.stepInEdge (d : Dev) (falling : Bool) : Dev :=
  let d := d.pinEdge 0 falling
  if falling = d.rbit (PHT + 4) 8 then d.bellIn 1 none else d

/-- An edge at AUX_IN: a bell or a capture, by the role the pin holds (R24, R452). -/
def Dev.auxInEdge (d : Dev) (falling : Bool) : Dev :=
  let d := d.pinEdge 2 falling
  if falling ≠ d.rbit (PHT + 4) 8 then d
  else if d.pinRole 2 = 1 then d.bellIn 2 none
  else if d.pinRole 2 = 2 then d.capture
  else d

/-- A BELL flit on an ACTIVE port (R385): forwarded if its count is new, and offered to the tracker. -/
def Dev.bellFlit (d : Dev) (port origin : Nat) (count : Tag) : Dev :=
  if (d.port port).state ≠ 5 then d
  else
    let d := d.forwardBell port origin count.toNat
    if origin = d.rf (PHT + 4) 26 16 then d.bellIn 3 (some count) else d

end Sys2Proof.Machine
end

