-- ==== Sys2Proof/Machine/Care.lean ====
section
/-! DEFINITION. The caretaker: power, resets, boot, keys, mailboxes, clock steps, telemetry (R400 to R406, R413 to R435). -/
namespace Sys2Proof.Machine

/-! What runs when (R413 to R420) -/

/-- The module is out of reset with its rails up: boot has begun. -/
def State.running (s : State) : Bool := s.care.power == .good && !s.care.resetLow && decide (2 ≤ s.care.run.stage)
/-- The function answers the host (R418, R139). -/
def State.hostUp (s : State) : Bool := s.running && decide (6 ≤ s.care.run.stage) && !s.care.perstLow

def State.setRun (s : State) (f : CareRun → CareRun) : State := { s with care := { s.care with run := f s.care.run } }
def State.setKept (s : State) (f : Kept → Kept) : State := { s with care := { s.care with kept := f s.care.kept } }
def State.setDev (s : State) (f : Dev → Dev) : State := { s with dev := f s.dev }
def State.setStageOf (s : State) (n : Nat) : State := s.setRun (fun r => { r with stage := n })

/-- One character on UART_TX (R430): a start bit, 8 data bits from the least significant, no parity, one stop bit. -/
def uartChar (b : Byte) : List Bool := false :: (List.range 8).map (fun i => b.getLsbD i) ++ [true]

/-- Print a line of the boot log on the console, or a failure code (R417, R430). What the line says besides is free (log entry
104). -/
def State.console (s : State) (fail : Option Nat) : State :=
  let st := s.care.run.stage
  s.setDev (fun d => d.emit (.console st fail ((Config.consoleText st fail).flatMap uartChar)))

/-- Boot reaches a stage: its line is printed. -/
def State.bootTo (s : State) (n : Nat) : State := (s.setStageOf n).console none

/-- The boot stages from 6 on follow what the device does: ring 0, the first seating, its end (R417, R420). -/
def State.settle (s : State) : State :=
  let st := s.care.run.stage
  if st = 6 ∧ s.dev.ringEn 0 then s.bootTo 7
  else if st = 7 ∧ s.dev.plt.seating then s.bootTo 8
  else if (st = 8 ∨ st = 7) ∧ s.dev.plt.seated ∧ !s.dev.plt.seating then s.bootTo 9
  else s

/-- Something happens inside the module. -/
def State.onDev (f : Dev → Dev) (s : State) : State := if s.running then (s.setDev f).settle else s
/-- Something happens that needs the host link. -/
def State.onHost (f : Dev → Dev) (s : State) : State := if s.hostUp then (s.setDev f).settle else s
/-- A register access of a master. -/
def State.by_ (m : Master) (f : Dev → Dev) (s : State) : State := match m with | .host => s.onHost f | _ => s.onDev f

/-- What outlives a module reset in the registers: FLT_PREV_SRC and FLT_PREV_STEP (R404, R414). -/
def keptRegs (d : Dev) : Tbl Word :=
  d.regs.filter (fun e => e.1 == FLT + 0x24 || e.1 == FLT + 0x28 || e.1 == FLT + 0x2C)

/-- A module reset (R414, R415). A firmware slot that is being written is left invalid. -/
def State.moduleReset (s : State) : State :=
  let k := s.care.kept
  let k := if s.care.run.mbHost.busy ∧ bits s.care.run.mbHost.cmd.toNat 7 0 = 3 then
      (if k.active = 0 then { k with slot1 := [], pending := false } else { k with slot0 := [], pending := false })
    else k
  { s with
    care := { s.care with kept := k, run := { stage := if s.care.resetLow then 0 else 2 } }
    dev := { sent := s.dev.sent, free := s.dev.free, regs := keptRegs s.dev } }

/-- Everything but fuses and flash is lost (R414): the state while the power stage is not up. -/
def State.unpowered (s : State) (p : Power) : State :=
  { s with
    care := { s.care with power := p, bootCnt := 0, run := { stage := match p with | .starting _ => 1 | _ => 0 } }
    dev := { sent := s.dev.sent, free := s.dev.free } }

/-! Power (R413) -/

/-- POWER_IN (R396): the input is outside 38 V to 50 V while the stage runs. -/
def State.inputBad (s : State) (mV : Nat) : State :=
  if s.running ∧ ((34000 ≤ mV ∧ mV < 38000) ∨ 50000 < mV) then s.setDev (fun d => d.fault 0) else s

def State.powerRise (s : State) (mV : Nat) : State :=
  match s.care.power with
  | .off => if 37000 < mV then s.unpowered (.starting false) else s
  | _ => s.inputBad mV

def State.powerFall (s : State) (mV : Nat) : State :=
  if mV < 34000 then s.unpowered .off else s.inputBad mV

/-- Power-good: a power-on reset, and boot at stage 2 unless MOD_RESET# is low. -/
def State.powerGoodIn (s : State) : State :=
  match s.care.power with
  | .starting _ =>
    let s := s.unpowered .good
    s.setStageOf (if s.care.resetLow then 0 else 2)
  | _ => s

/-- No power-good within 30 ms: off for 1 s, and a second failure is final. -/
def State.powerTimeout (s : State) : State :=
  match s.care.power with
  | .starting false => s.unpowered .waiting
  | .starting true => s.unpowered .failed
  | _ => s

def State.powerRetry (s : State) : State :=
  match s.care.power with
  | .waiting => s.unpowered (.starting true)
  | _ => s

/-- MOD_RESET# changes (R414, R415). -/
def State.resetPin (s : State) (low : Bool) : State :=
  if low = s.care.resetLow then s
  else
    let s := { s with care := { s.care with resetLow := low } }
    if s.care.power = .good then s.moduleReset else s

/-! Keys and signatures (R421 to R423) -/

/-- Kind of a key slot: 1 firmware, 2 configuration, 3 owner. -/
def keyKind (k : Nat) : Nat := if k < 2 then 1 else if k < 4 then 2 else 3

/-- The public key of a slot that is valid and not revoked. -/
def Kept.key (k : Kept) (slot : Nat) : Option Bytes :=
  if slot < 4 then some (Config.romKey slot)
  else if 16 ≤ slot then none
  else match tfind k.owners slot with
    | some o => if o.revoked then none else some o.key
    | none => none

/-- The order of brainpoolP384r1, as RFC 5639 gives it. -/
def curveOrder : Nat := 0x8CB91E82A3386D280F5D6F7E50E641DF152F7109ED5456B31F166E6CAC0425A7CF3AB6AF6B7FC3103B883202E9046565

/-- The checks of R422 on a signature block over signed bytes, for objects that the kinds given may sign. -/
def Kept.signed (k : Kept) (kinds : List Nat) (msg block : Bytes) : Bool :=
  let sel := fld block 0 4
  let r := fldBe block 16 48
  let v := fldBe block 64 48
  sel < 16 && (match k.key sel with
    | none => false
    | some key => kinds.contains (keyKind sel) && 1 ≤ r && r < curveOrder && 1 ≤ v && v < curveOrder
        && Config.ecdsaHolds key (Config.sha384 msg) r v)

/-- Verify a signature, with its counters (R422, R435). -/
def State.verify (s : State) (kinds : List Nat) (msg block : Bytes) : Bool × State :=
  if s.care.kept.signed kinds msg block then (true, s.setRun (fun r => { r with lastSel := fld block 0 4 }))
  else (false, s.setRun (fun r => { r with sigFail := sat32 r.sigFail 1 }))

/-- Verify an object whose last 128 bytes are its signature block (R51). -/
def State.verifyTail (s : State) (kinds : List Nat) (b : Bytes) : Bool × State :=
  s.verify kinds (b.take (b.length - 128)) (b.drop (b.length - 128))

/-! Firmware slots (R424, R425) -/

/-- The zero bytes of a signature block are zero (R51). -/
def blockOk (block : Bytes) : Bool := zeroAt block 4 12 && zeroAt block 112 16

/-- The header and the signature block of an image are well formed. -/
def imageOk (b : Bytes) : Bool :=
  192 ≤ b.length && blockOk (b.drop (b.length - 128)) && b.length ≤ 0x1000000 && fld b 0 4 == 0x4B544346 && fld b 4 2 == 1 && fld b 8 4 == b.length
    && zeroAt b 6 2 && zeroAt b 14 2 && zeroAt b 24 40

def imageSvn (b : Bytes) : Nat := fld b 12 2

def Kept.slot (k : Kept) (i : Fin 2) : Bytes := if i = 0 then k.slot0 else k.slot1
def Kept.setSlot (k : Kept) (i : Fin 2) (b : Bytes) : Kept := if i = 0 then { k with slot0 := b } else { k with slot1 := b }
/-- The other slot. -/
def other (i : Fin 2) : Fin 2 := if i = 0 then 1 else 0

/-- A slot verifies (R425). -/
def State.slotOk (s : State) (i : Fin 2) : Bool × State :=
  let b := s.care.kept.slot i
  if !imageOk b then (false, s)
  else
    let (ok, s) := s.verifyTail [1] b
    (ok && decide (s.care.kept.minSvn ≤ imageSvn b), s)

/-! Boot (R417 to R420, R425) -/

/-- A stage fails: its code goes into CTK_BOOT.FAIL and onto the console (R417). -/
def State.failBoot (s : State) (code : Nat) : State := (s.setRun (fun r => { r with fail := code })).console (some code)
/-- Halt at a stage with a FAIL code. -/
def State.haltBoot (s : State) (code : Nat) : State := (s.failBoot code).setRun (fun r => { r with halted := true })

/-- A pending slot that fails: one more reset, and the previous slot (R425). -/
def State.fallBack (s : State) : State := ((s.failBoot s.care.run.stage).setKept (fun k => { k with pending := false, fellBack := true })).moduleReset

/-- Start the firmware of a slot: stage 4. -/
def State.startSlot (s : State) (i : Fin 2) (pending : Bool) : State :=
  (s.setRun (fun r => { r with slot := i, onPending := pending, svn := imageSvn (s.care.kept.slot i) })).bootTo 4

/-- Stage 3: the pending slot first, else the active one and then the other. -/
def State.bootVerify (s : State) : State :=
  let s := s.setRun (fun r => { r with fwFallback := s.care.kept.fellBack })
  let s := s.setKept (fun k => { k with fellBack := false })
  let act := s.care.kept.active
  if s.care.kept.pending then
    let (ok, s) := s.slotOk (other act)
    if ok then s.startSlot (other act) true else s.fallBack
  else
    let (ok, s) := if s.care.run.triedOther then (false, s) else s.slotOk act
    if ok then s.startSlot act false
    else
      let (ok, s) := s.slotOk (other act)
      if ok then s.startSlot (other act) false else s.haltBoot 3

/-- Stage 4: quarantine bits, channels, set 0 (R78, R348, R351, R407, R419). -/
def Dev.bringUp (d : Dev) (f : BootFindings) : Dev :=
  let d := f.quarantined.foldl (fun d t =>
    (d.wbit (PLT + 0x100 + t.val / 32 * 4) (t.val % 32) true).wbit (FLT + 0x100 + (128 + t.val / 16) / 32 * 4) ((128 + t.val / 16) % 32) true) d
  let d := (List.range 16).foldl (fun d n =>
    let c := f.channels.getD n (0, 0)
    (d.wf (memCh n 0) 2 0 (c.1 % 8)).wf (memCh n 0) 9 8 (c.2 % 4)) d
  let d := d.formSets d.firstSet
  let bad := (List.range 16).filter (fun n => let c := d.rf (memCh n 0) 2 0; c == 2 || c == 3)
  d.faults (bad.map (fun n => (16 + n, { unit := n })))

/-- The drill of the ring manager, as an image (R390). -/
def ringManager : Drill := { index := 0, kinds := 8, entry := 0, code := Config.ringManager, scratch := [] }

/-- Stage 5: the fabric and the ports (R390, R407, R428). -/
def Dev.linkUp (d : Dev) (cfg : Bytes) (badPorts : List Nat) (badEth : List Nat) : Dev :=
  let d := ((d.wn (LNK + 8) (bits (fld cfg 0 2) 10 0)).wn (LNK + 0xC) (bits (fld cfg 2 1) 5 0 + fld cfg 3 1 * 256)).wn (LNK + 0x10) (fld cfg 4 4)
  let d := ((d.wn2 (ethReg 0 8) (fld cfg 8 6)).wn2 (ethReg 1 8) (fld cfg 16 6))
  let d := (List.range 4).foldl (fun d p => d.loadDrill (1232 + p) ringManager) d
  let d := d.wbit LNK 31 true
  let d := (List.range 4).foldl (fun d p =>
    if badPorts.contains p then d.wbit LNK (if p < 2 then 29 else 30) true else (d.wbit (prtReg p 0) 0 true).portEnable p) d
  let d := badEth.foldl (fun d n => d.setEth n { d.eth n with failed := true }) d
  d.faults (((List.range 4).filter badPorts.contains).map (fun p => (40 + p, { unit := p }))
    ++ ((List.range 2).filter badEth.contains).map (fun n => (56 + n, { unit := 4 + n })))

/-- Reaching stage 6: the boot is counted, and a pending slot becomes the active one (R420, R425). -/
def State.reachHost (s : State) : State :=
  let s := { s with care := { s.care with bootCnt := (s.care.bootCnt + 1) % 2 ^ 32 } }
  let s := if s.care.run.onPending then s.setKept (fun k => { k with active := s.care.run.slot, pending := false }) else s
  ((s.setRun (fun r => { r with onPending := false })).bootTo 6).settle

/-- Stage 5 ends; stage 6 waits while PERST# is low (R418). -/
def State.bootLinks (s : State) (f : BootFindings) : State :=
  if s.care.run.linksDone then s
  else
    let s := s.setDev (fun d => d.linkUp s.care.kept.config (f.failedPorts.map (·.val)) (f.failedEth.map (·.val)))
    let s := s.setRun (fun r => { r with linksDone := true })
    if s.care.perstLow then s else s.reachHost

/-- BOOT_STAGE_END (R417): the stage in progress ends with what it found. -/
def State.bootEnd (s : State) (f : BootFindings) : State :=
  if !s.running ∨ s.care.run.halted then s
  else match s.care.run.stage with
    | 2 =>
      if f.securityOk then
        let s := (s.setRun (fun r => { r with selftestOk := true })).bootTo 3
        if Config.certKey s.care.kept.cert1 = Config.identityKey then s else s.setDev (fun d => d.fault 5)
      else (s.setDev (fun d => d.fault 5)).haltBoot 2
    | 3 => s.bootVerify
    | 4 =>
      let s := s.setDev (fun d => d.bringUp f)
      let s := s.bootTo 5
      if s.dev.stagingOk then s else s.failBoot 5
    | 5 => s.bootLinks f
    | _ => s

/-- BOOT_STAGE_FAIL (R417, R425): the stage in progress fails, or overruns its limit. -/
def State.bootFail (s : State) (overrun : Bool) : State :=
  if !s.running ∨ s.care.run.halted ∨ s.care.run.linksDone then s
  else
    let st := s.care.run.stage
    if st = 2 then ((if overrun then s else s.setDev (fun d => d.fault 5))).haltBoot 2
    else if overrun ∧ 3 ≤ st ∧ st ≤ 5 ∧ (s.care.run.onPending ∨ (st = 3 ∧ s.care.kept.pending)) then s.fallBack
    else if st = 3 then
      (if s.care.kept.pending then s.fallBack
       else if s.care.run.triedOther then s.haltBoot 3 else (s.failBoot 3).setRun (fun r => { r with triedOther := true }))
    else if st = 4 then s.haltBoot 4
    else if st = 5 then
      (s.failBoot 5).bootLinks { securityOk := true, quarantined := [], channels := [], failedPorts := [], failedEth := [] }
    else s

/-! The grace timer (R400, R401, R404) -/

/-- 1 ms in timebase cycles (R22). -/
def msCycles : Nat := 400000

/-- A stage change whose event the spec gives no level: it is free. -/
def Dev.stageTo (d : Dev) (n : Nat) : Dev := d.drawn.2.setStage n (d.drawn.1 % 4)

/-- GRACE_EXPIRY (R401): the stage advances by one; reaching RESET records the cause and resets the module (R404). -/
def State.graceExpiry (s : State) : State :=
  let d := s.dev
  if !s.running ∨ !d.flt.timerRun ∨ d.now < d.flt.started + d.flt.limit * msCycles then s
  else
    let restart (d : Dev) : Dev := { d with flt := { d.flt with started := d.now, limit := d.grace } }
    if !d.rbit FLT 30 then s.setDev restart
    else if d.flt.stage < 2 then s.setDev (fun d => restart (d.stageTo (d.flt.stage + 1)))
    else
      let d := d.stageTo 3
      let d := (d.wn (FLT + 0x24) (2 ^ 31 + 3 * 2 ^ 16 + d.rf (FLT + 0x20) 8 0)).wn2 (FLT + 0x28) d.step
      { s with dev := d }.moduleReset

/-- FLT_ACK (R400). -/
def Dev.fltAck (d : Dev) (v : Nat) : Dev :=
  if v = d.fltSeq then { d with flt := { d.flt with timerRun := false } } else d

/-- FLT_CTL.RESUME (R405). -/
def Dev.fltResume (d : Dev) : Dev :=
  if d.flt.stage = 1 ∧ !d.flt.timerRun then d.stageTo 0 else d

/-! Clock steps (R432, R433) -/

/-- The step in force follows the largest of the three (R433); a change raises CLOCK_STEP. -/
def State.clockStep (s : State) : State :=
  let r := s.care.run
  let n := max (max r.sT r.sP) r.floor
  if n = r.s then s else (s.setRun (fun r => { r with s := n })).setDev (fun d => d.fault 3)

/-- 100 ms have passed since a step last changed. -/
def longSince (now : Nat) (t : Option Nat) : Bool := match t with | some t => decide (t + 100 * msCycles ≤ now) | none => true

/-- THERMAL_EVAL (R432), with T in tenths of a degree. -/
def State.thermal (s : State) (die0 die1 : Int) : State :=
  if !s.running then s
  else
    let t := max die0 die1
    let r := s.care.run
    let hi : Int := (min 100 (bits r.therm 15 8) : Nat) * 10
    let lo : Int := (bits r.therm 7 0 : Nat) * 10
    let n := if hi < t then min 15 (r.sT + 1) else if t < lo ∧ longSince s.dev.now r.sTAt then r.sT - 1 else r.sT
    let s := if n = r.sT then s else s.setRun (fun r => { r with sT := n, sTAt := some s.dev.now })
    let s := if 1050 ≤ t then s.setDev (fun d => d.fault 2) else s
    s.clockStep

/-- The power limit in force, in W; 0 is off. -/
def powerLimit (pcap : Nat) : Nat := if pcap = 0 then 0 else min 1800 (max 600 pcap)

/-- POWER_CAP_EVAL (R432), with P in tenths of a watt. -/
def State.powerCap (s : State) (p : Nat) : State :=
  if !s.running then s
  else
    let s := s.setRun (fun r => { r with tel := tput r.tel 0x10C (BitVec.ofNat 32 p) })
    let r := s.care.run
    let lim := powerLimit r.pcap * 10
    let s := if lim ≠ 0 ∧ lim < p ∧ r.sP = 15 then s.setRun (fun r => { r with pcapUnmet := true }) else s
    let n := if lim = 0 then 0 else if lim < p then min 15 (r.sP + 1)
      else if 16 * p < 15 * lim ∧ longSince s.dev.now r.sPAt then r.sP - 1 else r.sP
    let s := if n = r.sP then s else s.setRun (fun r => { r with sP := n, sPAt := some s.dev.now })
    s.clockStep

/-! Telemetry and OSFP modules (R429, R431) -/

/-- TELEMETRY_REFRESH (R429). -/
def State.telemetry (s : State) (t : Sensors) : State :=
  if !s.running then s
  else s.setRun (fun r =>
    let put (x : Tbl Word) (o : Nat) (w : Word) : Tbl Word := tput x o w
    let x := put (put (put r.tel 0x100 (BitVec.ofNat 32 t.vin)) 0x104 (BitVec.ofNat 32 t.iin)) 0x108 (BitVec.ofNat 32 t.pin)
    let x := (List.range 3).foldl (fun x d => put x (0x110 + d * 4) (BitVec.ofInt 32 (t.dies.getD d 0))) x
    let x := (List.range 16).foldl (fun x n => put x (0x120 + n * 4) (match t.dimms.getD n none with
      | some v => BitVec.ofInt 32 v | none => 0x80000000#32)) x
    { r with tel := put x 0x160 (BitVec.ofInt 32 t.coolant), telSeq := (r.telSeq + 1) % 2 ^ 32 })

/-- OSFP_POLL (R431): the medium of a port's module; an unsupported or failing module raises ETH_HW. -/
def State.osfp (s : State) (p medium : Nat) (healthy : Bool) : State :=
  if !s.running ∨ s.care.run.stage < 5 then s
  else
    let s := s.setDev (fun d => d.setEth p { d.eth p with media := if medium < 4 then medium else 0 })
    if healthy ∧ medium < 4 then s else s.setDev (fun d => d.fault (56 + p) (4 + p))

/-- ALIVE_TOGGLE (R406). -/
def State.aliveToggle (s : State) : State :=
  if s.running ∧ s.care.run.stage = 9 ∧ s.dev.flt.stage < 2 then
    s.setDev (fun d => { d.emit (.alive !d.alive) with alive := !d.alive })
  else s

/-! The mailboxes (R423 to R428) -/

def State.mbox (s : State) (m : Mbox) : MboxSt := match m with | .host => s.care.run.mbHost | .i3c => s.care.run.mbI3c
def State.setMbox (s : State) (m : Mbox) (x : MboxSt) : State :=
  s.setRun (fun r => match m with | .host => { r with mbHost := x } | .i3c => { r with mbI3c := x })

/-- A command of a mailbox runs: the host's when its GO has been given, the I3C's when the host's is not running. -/
def State.mbRuns (s : State) (m : Mbox) (cmd : Nat) : Bool :=
  s.running && (match m with
    | .host => s.care.run.mbHost.busy && bits s.care.run.mbHost.cmd.toNat 7 0 == cmd
    | .i3c => !s.care.run.mbHost.busy)

/-- A command ends (R428). -/
def State.mbEnd (s : State) (m : Mbox) (cmd st detail result : Nat) : State :=
  let x := s.mbox m
  let x := match m with | .host => x | .i3c => { x with cmd := BitVec.ofNat 32 cmd }
  s.setMbox m { x with busy := false, status := st, detail, result }

/-- Bytes written back to a mailbox's buffer. -/
def State.mbWrite (s : State) (m : Mbox) (b : Bytes) : State :=
  s.setDev (fun d => d.emit (match m with
    | .host => .hostWrite (s.care.run.mbHost.addrLo.toNat + s.care.run.mbHost.addrHi.toNat * 2 ^ 32) b false
    | .i3c => .i3c b))

/-- Buffer length of a command: LEN of the host's mailbox, or what the I3C master gave, at most the window. -/
def State.mbLen (s : State) (m : Mbox) (len : Nat) : Nat := match m with | .host => s.care.run.mbHost.len.toNat | .i3c => min len 4096

/-- GET_CERT (R426, R428). -/
def State.getCert (s : State) (m : Mbox) (len : Nat) (writable : Bool) : State :=
  if !s.mbRuns m 1 then s
  else
    let c := s.care.kept.certs
    if s.mbLen m len < c.length then s.mbEnd m 1 Status.lenRange.code 0 0
    else if m = .host ∧ !writable then s.mbEnd m 1 Status.descInvalid.code 6 0
    else (s.mbWrite m c).mbEnd m 1 0 0 c.length

/-- The 256 signed bytes of the attestation report (R427). -/
def State.reportBody (s : State) (nonce : Bytes) : Bytes :=
  let k := s.care.kept
  let d := s.dev
  let keys := (List.range 16).flatMap (fun i => (k.key i).getD [])
  let quar := ((List.range 1152).filter d.quar).length
  leB 4 0x54544152 ++ leB 2 1 ++ zeros 2 ++ slice nonce 0 32 ++ leB 4 0x7741A100 ++ zeros 4 ++ leB 8 k.serial.toNat
    ++ Config.sha384 (k.slot s.care.run.slot) ++ leB 2 s.care.run.svn ++ leB 2 k.minSvn ++ leB 4 s.care.bootCnt
    ++ (if d.plt.seated then d.plt.digest else zeros 48) ++ leB 8 (if d.plt.seated then d.platId else 0)
    ++ Config.sha384 keys ++ leB 6 d.step ++ leB 2 quar ++ zeros 32

/-- ATTEST (R427). `data` is the buffer, none where it cannot be read or written. -/
def State.attest (s : State) (m : Mbox) (data : Option Bytes) : State :=
  if !s.mbRuns m 2 then s
  else
    let len := s.mbLen m ((data.getD []).length)
    if len < 352 then s.mbEnd m 2 Status.lenRange.code 0 0
    else match data with
      | none => s.mbEnd m 2 Status.descInvalid.code 6 0
      | some b =>
        let body := s.reportBody b
        let r := body ++ Config.identitySign (Config.sha384 body)
        (s.mbWrite m r).mbEnd m 2 0 0 352

/-- A free number drawn from the device's counter. -/
def State.drawn (s : State) : Nat × State := (s.dev.drawn.1, s.setDev (fun d => d.drawn.2))

/-- FW_UPDATE (R425, R428): the image goes to the slot that is not active, is verified, and is marked pending. -/
def State.fwUpdate (s : State) (data : Option Bytes) : State :=
  if !s.mbRuns .host 3 then s
  else match data with
    | none => s.mbEnd .host 3 Status.descInvalid.code 6 0
    | some b =>
      let len := s.care.run.mbHost.len.toNat
      if 0x1000000 < len ∨ len ≠ fld b 8 4 then s.mbEnd .host 3 Status.lenRange.code 0 0
      else
        let i := other s.care.kept.active
        let b := slice b 0 len
        let s := s.setKept (fun k => { (k.setSlot i b) with pending := false })
        if !imageOk b then s.mbEnd .host 3 Status.format.code 0 0
        else
          let (ok, s) := s.verifyTail [1] b
          if !ok then s.mbEnd .host 3 Status.signature.code 0 0
          else if imageSvn b < s.care.kept.minSvn then
            let (n, s) := s.drawn
            s.mbEnd .host 3 (([Status.format, Status.signature, Status.lenRange] : List Status).getD (n % 3) .format).code 0 0
          else (s.setKept (fun k => { k with pending := true })).mbEnd .host 3 0 0 0

/-- FW_COMMIT_SVN (R425). -/
def State.fwCommit (s : State) : State :=
  if !s.mbRuns .host 4 then s
  else
    let k := s.care.kept
    if s.care.run.svn ≤ k.minSvn then s.mbEnd .host 4 0 0 0
    else if 63 ≤ k.raises then s.mbEnd .host 4 Status.descInvalid.code 0 0
    else (s.setKept (fun k => { k with minSvn := s.care.run.svn, raises := k.raises + 1 })).mbEnd .host 4 0 0 0

/-- A buffer of a wrong length: the spec names no status for it, so status and detail are free (log entry 19). -/
def State.mbOpen (s : State) (m : Mbox) (cmd : Nat) : State :=
  let (a, s) := s.drawn
  let (b, s) := s.drawn
  s.mbEnd m cmd (a % 256) (b % 256) 0

/-- ENROLL_KEY (R422, R423). -/
def State.enroll (s : State) (data : Option Bytes) : State :=
  if !s.mbRuns .host 5 then s
  else match data with
    | none => s.mbEnd .host 5 Status.descInvalid.code 6 0
    | some b =>
      if s.care.run.mbHost.len ≠ 232 then s.mbOpen .host 5
      else
        let block := slice b 104 128
        if !blockOk block then s.mbEnd .host 5 Status.format.code 0 0
        else
        let (ok, s) := if !s.care.kept.ownerSet ∧ block.all (· == 0#8) then (true, s) else s.verify [3] (slice b 0 104) block
        let slot := fld b 0 1
        if !ok then s.mbEnd .host 5 Status.signature.code 0 0
        else if slot < 4 ∨ 16 ≤ slot ∨ (tfind s.care.kept.owners slot).isSome then s.mbEnd .host 5 Status.descInvalid.code 0 0
        else if fld b 4 1 ≠ 4 ∨ !Config.onCurve (slice b 4 97) then s.mbEnd .host 5 Status.format.code 0 0
        else (s.setKept (fun k => { k with ownerSet := true, owners := tput k.owners slot { key := slice b 4 97, revoked := false } })).mbEnd
          .host 5 0 0 0

/-- REVOKE_KEY (R422, R423). -/
def State.revoke (s : State) (data : Option Bytes) : State :=
  if !s.mbRuns .host 6 then s
  else match data with
    | none => s.mbEnd .host 6 Status.descInvalid.code 6 0
    | some b =>
      if s.care.run.mbHost.len ≠ 192 then s.mbOpen .host 6
      else if !blockOk (slice b 64 128) then s.mbEnd .host 6 Status.format.code 0 0
      else
        let (ok, s) := s.verify [3] (slice b 0 64) (slice b 64 128)
        let slot := fld b 0 1
        let valid := s.care.kept.owners.filter (fun e => !e.2.revoked)
        if !ok then s.mbEnd .host 6 Status.signature.code 0 0
        else match tfind valid slot with
          | some o =>
            if valid.length ≤ 1 then s.mbEnd .host 6 Status.descInvalid.code 0 0
            else (s.setKept (fun k => { k with owners := tput k.owners slot { o with revoked := true } })).mbEnd .host 6 0 0 0
          | none => s.mbEnd .host 6 Status.descInvalid.code 0 0

/-- The 64 bytes of SET_CONFIG are well formed (R428, R360). -/
def configOk (b : Bytes) : Bool :=
  fld b 0 2 < 2048 && 1 ≤ fld b 2 1 && fld b 2 1 ≤ 32 && 1 ≤ fld b 3 1 && fld b 3 1 ≤ 64 && zeroAt b 14 2 && zeroAt b 22 42

/-- SET_CONFIG (R428): in force from stage 5 of the next boot. -/
def State.setConfig (s : State) (m : Mbox) (data : Option Bytes) : State :=
  if !s.mbRuns m 7 then s
  else match data with
    | none => s.mbEnd m 7 Status.descInvalid.code 6 0
    | some b =>
      if s.mbLen m b.length ≠ 64 then s.mbOpen m 7
      else if !configOk (slice b 0 64) then s.mbEnd m 7 Status.descInvalid.code 0 0
      else (s.setKept (fun k => { k with config := slice b 0 64 })).mbEnd m 7 0 0 0

/-- MODULE_RESET (R428): completes with OK, then resets. -/
def State.mbReset (s : State) (m : Mbox) : State :=
  if s.mbRuns m 8 then (s.mbEnd m 8 0 0 0).moduleReset else s

/-- CTK_MB_GO: a command that no row names ends at once, with a status the spec does not state (log entry 19). -/
def State.mbGo (s : State) : State :=
  let x := s.care.run.mbHost
  let s := s.setMbox .host { x with busy := true, status := 0, detail := 0, result := 0 }
  let c := bits x.cmd.toNat 7 0
  if 1 ≤ c ∧ c ≤ 8 then s else s.mbOpen .host c

/-! CTK registers (R434) -/

/-- A write of a CTK register: offset and value. -/
def State.ctkWrite (s : State) (o : Nat) (v : Word) : State :=
  let x := s.care.run.mbHost
  let n := v.toNat
  if 0x40 ≤ o ∧ o ≤ 0x5C then
    if o = 0x54 ∨ o = 0x58 then (if x.busy then s.setRun (fun r => { r with mbCollide := true }) else s)
    else if x.busy then s.setRun (fun r => { r with mbCollide := true })
    else if o = 0x40 then s.setMbox .host { x with cmd := v }
    else if o = 0x44 then s.setMbox .host { x with addrLo := v }
    else if o = 0x48 then s.setMbox .host { x with addrHi := v }
    else if o = 0x4C then s.setMbox .host { x with len := v }
    else if o = 0x50 then s.setMbox .host { x with arg := v }
    else if bit n 0 then s.mbGo else s
  else if o = 4 then
    s.setRun (fun r => { r with mbCollide := r.mbCollide && !bit n 3, pcapUnmet := r.pcapUnmet && !bit n 2, badWrite := r.badWrite && !bit n 1 })
  else if o = 0x10 then (s.setRun (fun r => { r with floor := bits n 3 0 })).clockStep
  else if o = 0x14 then
    if bits n 15 8 ≤ bits n 7 0 then s.setRun (fun r => { r with badWrite := true })
    else s.setRun (fun r => { r with therm := bits n 15 0 })
  else if o = 0x18 then s.setRun (fun r => { r with pcap := bits n 15 0 })
  else if o = 0x20 then (if n = 0xA5A5 then s.moduleReset else s)
  else s

/-- A CTK register as it reads. -/
def State.ctkRead (s : State) (o : Nat) : Nat :=
  let r := s.care.run
  let x := r.mbHost
  if o = 0 then at_ r.fail 24 + at_ s.care.kept.active.val 16 + at_ (b2n s.care.kept.pending) 8 + r.stage
  else if o = 4 then at_ (b2n r.mbCollide) 3 + at_ (b2n r.pcapUnmet) 2 + at_ (b2n r.badWrite) 1 + b2n r.fwFallback
  else if o = 8 then s.care.bootCnt
  else if o = 0xC then at_ s.care.kept.minSvn 16 + r.svn
  else if o = 0x10 then at_ r.sP 16 + at_ r.sT 12 + at_ r.s 8 + r.floor
  else if o = 0x14 then r.therm
  else if o = 0x18 then r.pcap
  else if o = 0x40 then bits x.cmd.toNat 7 0
  else if o = 0x44 then x.addrLo.toNat
  else if o = 0x48 then x.addrHi.toNat
  else if o = 0x4C then x.len.toNat
  else if o = 0x50 then x.arg.toNat
  else if o = 0x54 then at_ (b2n x.busy) 31 + at_ x.detail 8 + x.status
  else if o = 0x58 then x.result
  else if o = 0x164 then r.telSeq
  else if 0x120 ≤ o ∧ o < 0x160 then (tget 0x80000000#32 r.tel o).toNat
  else if 0x100 ≤ o ∧ o < 0x164 then (tget 0#32 r.tel o).toNat
  else 0

/-- A SEC register as it reads (R435). -/
def State.secRead (s : State) (o : Nat) : Nat :=
  let k := s.care.kept
  if o = 0 then at_ (b2n s.care.run.selftestOk) 2 + b2n k.ownerSet
  else if o = 4 then s.care.run.sigFail
  else if o = 8 then s.care.run.lastSel
  else if o = 0x10 then k.serial.toNat % 2 ^ 32
  else if o = 0x14 then k.serial.toNat / 2 ^ 32
  else if 0x100 ≤ o ∧ o < 0x140 ∧ o % 4 = 0 then
    let i := (o - 0x100) / 4
    if i < 4 then 2 ^ 31 + keyKind i
    else match tfind k.owners i with
      | some w => at_ (b2n !w.revoked) 31 + at_ (b2n w.revoked) 30 + 3
      | none => 3
  else 0

end Sys2Proof.Machine
end

