-- ==== Sys2Proof/Machine/Rings.lean ====
section
/-! DEFINITION. Rings, doorbells, descriptors and the host link (R139 to R157, R160, R171, R177, R178). -/
namespace Sys2Proof.Machine

/-! Enabling (R143) -/

/-- The configuration checks of a ring about to be enabled. -/
def Dev.ringOk (d : Dev) (n : Nat) : Bool :=
  let entry := if d.ringKind n = 1 then 16 else 64
  d.ringKind n != 3 && 4 ≤ d.ringLog n && d.ringLog n ≤ 20
    && d.rn2 (rngReg n 8) % max 4096 (2 ^ d.ringLog n * entry) == 0 && (n != 0 || d.ringEn 1)

/-- EN of a ring goes from 0 to 1; its held fields have been written. -/
def Dev.ringOn (d : Dev) (n : Nat) : Dev :=
  if d.ringOk n then ((d.wbit (rngReg n 0) 31 true).wn (rngReg n 0x10) 0).wn (rngReg n 0x14) 0
  else d.wbit (rngReg n 4) 5 true

def Dev.ringOff (d : Dev) (n : Nat) : Dev := d.wbit (rngReg n 0) 31 false

/-- RNG_[n]_STATUS.IDLE (R144). -/
def Dev.ringIdle (d : Dev) (n : Nat) : Bool :=
  if d.ringKind n = 0 then (d.ring n).open_.isEmpty
  else !d.host.cpls.any (fun c => c.ring == n) && !d.host.events.any (fun e => e.ring == n)
    && !d.host.deliveries.any (fun x => x.ring == n)

/-! Doorbells (R145) -/

/-- A refused doorbell. -/
def Dev.dbRefused (d : Dev) (n : Nat) : Dev := ((d.wbit (rngReg n 4) 4 true).bump (RNG + 4)).wn (RNG + 8) n

/-- A 4-byte write to a doorbell word. -/
def Dev.doorbell (d : Dev) (n v : Nat) : Dev :=
  let dist (a b : Nat) : Nat := (a + 2 ^ 32 - b) % 2 ^ 32
  let h := d.ringHead n
  let t := d.ringTail n
  if !d.ringEn n then d.dbRefused n
  else if d.ringKind n = 0 then
    if dist v h ≤ 2 ^ d.ringLog n ∧ dist v t ≤ 2 ^ d.ringLog n then d.wn (rngReg n 0x14) v else d.dbRefused n
  else if dist v h ≤ dist t h then d.wn (rngReg n 0x10) v else d.dbRefused n

/-! The host link (R139, R157) -/

/-- HOST_LINK_RESET (R139): every EN is cleared; a Function Level Reset also clears the MSI-X table. All but entry into D3hot
reset the configuration space (PRESUMED, log entry 92). -/
def Dev.linkReset (d : Dev) (flr : Bool) (d3 : Bool := false) : Dev :=
  let d := if d3 then d else { d with host := { d.host with bar4Log := 36, aerUr := false } }
  let isCtl (a : Nat) : Bool := RNG + 0x100000 ≤ a && a < FLD && a % 0x40 == 0
  let d := { d with regs := d.regs.map (fun (e : Nat × Word) => (e.1, if isCtl e.1 then e.2 &&& 0x7FFFFFFF#32 else e.2)) }
  if flr then { d with host := { d.host with msix := [], masked := [], pendingIrq := [] } } else d

/-- MSIX_UNMASK (R157): the message of a pending vector is sent. -/
def Dev.msixUnmask (d : Dev) (v : Nat) : Dev :=
  if d.host.masked.contains v then
    let was := d.host.pendingIrq.contains v
    let d := { d with host := { d.host with masked := d.host.masked.erase v, pendingIrq := d.host.pendingIrq.erase v } }
    if was then d.emit (.msix v) else d
  else d

/-- A write of a word of the MSI-X table (R120, R157): word 3 of an entry holds its mask bit. -/
def Dev.msixWrite (d : Dev) (word : Nat) (v : Word) : Dev :=
  let k := word / 4
  if word % 4 ≠ 3 then { d with host := { d.host with msix := tput d.host.msix word v } }
  else if v.getLsbD 0 then
    if d.host.masked.contains k then d else { d with host := { d.host with masked := d.host.masked ++ [k] } }
  else d.msixUnmask k

/-- A read of a word of the MSI-X table, and of the pending-bit array. -/
def Dev.msixRead (d : Dev) (word : Nat) : Word :=
  if word % 4 = 3 then BitVec.ofNat 32 (b2n (d.host.masked.contains (word / 4))) else tget 0 d.host.msix word
def Dev.pbaRead (d : Dev) (word : Nat) : Word :=
  BitVec.ofNat 32 (((List.range 32).filter (fun i => d.host.pendingIrq.contains (word * 32 + i))).foldl (fun a i => a + 2 ^ i) 0)

/-- IRQ_TIMER (R157). -/
def Dev.irqTimer (d : Dev) (n : Nat) : Dev :=
  let t := d.rf (rngReg n 0x18) 31 16
  if d.rbit (rngReg n 0) 23 ∧ t ≠ 0 ∧ (d.ring n).irqCount ≠ 0 ∧ (d.ring n).irqSince + t * 256 ≤ d.now then d.ringIrq n else d

/-! Descriptors (R146, R151) -/

def Dsc.op (b : Bytes) : Nat := fld b 0 1
def Dsc.fence (b : Bytes) : Bool := bit (fld b 1 1) 0
def Dsc.irq (b : Bytes) : Bool := bit (fld b 1 1) 1
def Dsc.user (b : Bytes) : Nat := fld b 4 4
def Dsc.tag (b : Bytes) : Nat := fld b 8 4 + fld b 12 2 * 2 ^ 32
def Dsc.host (b : Bytes) : Nat := fld b 16 8
def Dsc.length (b : Bytes) : Nat := fld b 24 4
def Dsc.alloc (b : Bytes) : Nat := fld b 28 4
def Dsc.offset (b : Bytes) : Nat := fld b 32 8
def Dsc.arg (b : Bytes) : Nat := fld b 40 4

/-- Reserved bits of the header are zero. -/
def Dsc.headOk (b : Bytes) : Bool := bits (fld b 1 1) 7 2 == 0 && fld b 2 2 == 0 && fld b 14 2 == 0

/-- The descriptor of a fetched entry, as its completion names it. -/
def originOf (n : Nat) (f : Fetched) : Origin :=
  let b := f.desc.getD []
  { ring := n, index := f.index, user := Dsc.user b, irq := Dsc.irq b, op := Dsc.op b, serial := f.serial, div := f.div }

def Dev.ringMapOf (d : Dev) (n : Nat) : Option RingMap := d.plt.ringMap.find? (fun m => m.ring == n)

/-- While a Plat is being seated, descriptors wait for the new ring map (R72 step 2), and ring 0's commands on allocation records
and tensor descriptors for the new records (log entry 79). -/
def Dev.waitsSeating (d : Dev) (n : Nat) (f : Fetched) : Bool :=
  let op := Dsc.op (f.desc.getD [])
  d.plt.seating && (n != 0 || (0x42 ≤ op && op ≤ 0x45))

/-- The descriptor that a ring executes next: ring 0 waits for a seating at once (R150), a FENCE for all before it. -/
def Dev.front (d : Dev) (n : Nat) : Option Fetched :=
  if n = 0 ∧ d.plt.ringWait then none
  else match (d.ring n).fetched with
    | [] => none
    | f :: _ => if d.waitsSeating n f then none else if Dsc.fence (f.desc.getD []) ∧ (d.ring n).open_.head? ≠ some f.serial then none else some f

/-- Take the front descriptor off. -/
def Dev.pop (d : Dev) (n : Nat) : Dev := d.setRing n { d.ring n with fetched := (d.ring n).fetched.drop 1 }

/-- A descriptor ends without making anything: on a mapped ring it keeps its place in its lane, behind the packets of its ring
that are still on their way (R93, R153). -/
def Dev.refuse (d : Dev) (o : Origin) (st : Status) (detail : Nat) (result : Nat := 0) : Dev :=
  match d.ringMapOf o.ring with
  | some m =>
    if d.ringUnderway m.quad o.ring then
      d.send m.quad 0 { pkt := mkPkt m.quad 0 0 0 m.lane 0 0 0 0 0 0 0, sender := 0xFFFF, origin := some o, refused := some (st, detail, result) }
    else d.laneItem m.quad m.lane o .finished st detail result
  | none => d.complete o none st detail result

/-- Checks 1 and 2 of R151, and a host error on the descriptor itself. -/
def Dev.earlyBad (d : Dev) (n : Nat) (f : Fetched) : Option Nat :=
  match f.desc with
  | none => some 6
  | some b =>
    let op := Dsc.op b
    if !((1 ≤ op && op ≤ 4) || (0x40 ≤ op && op ≤ 0x49)) then some 1
    else if (if n = 0 then op < 0x40 else 0x40 ≤ op ∨ (d.ringMapOf n).isNone) then some 2 else none

/-- Refuse what stands in front and has no command of its own. -/
def skimN (n : Nat) : Nat → Dev → Dev
  | 0, d => d
  | k + 1, d => match d.front n with
    | some f => (match d.earlyBad n f with
      | some c => skimN n k ((d.pop n).refuse (originOf n f) .descInvalid c)
      | none => d)
    | none => d

def Dev.skim (d : Dev) (n : Nat) : Dev := skimN n (d.ring n).fetched.length d

/-- Execute the front descriptor of a ring when its opcode is op; `f` answers none while the descriptor must wait. -/
def Dev.descriptor (d : Dev) (n op : Nat) (f : Dev → Origin → Bytes → Option Dev) : Dev :=
  let d := d.skim n
  match d.front n with
  | some { index, serial, div, desc := some b } =>
    if Dsc.op b = op then
      match f (d.pop n) (originOf n { index, serial, div, desc := some b }) b with
      | some d' => d'.skim n
      | none => d
    else d
  | _ => d

/-! DESCRIPTOR_FETCH (R145) -/

/-- Submission rings with descriptors waiting, ascending. -/
def Dev.waitingRings (d : Dev) : List Nat :=
  (d.regs.filterMap (fun (e : Nat × Word) =>
    if RNG + 0x100000 ≤ e.1 ∧ e.1 < FLD ∧ e.1 % 0x40 = 0 then some ((e.1 - (RNG + 0x100000)) / 0x40) else none)).filter
    (fun n => d.ringEn n && d.ringKind n == 0 && d.ringUsed n != 0)

/-- The ring read next: round-robin from the one read last. -/
def Dev.fetchRing (d : Dev) : Option Nat :=
  match d.waitingRings.find? (fun n => d.host.lastFetch < n) with
  | some n => some n
  | none => d.waitingRings.head?

/-- Up to 16 descriptors of the next ring in round-robin are read; HEAD passes them. -/
def Dev.fetch (d : Dev) (data : List (Option Bytes)) : Dev :=
  match d.fetchRing with
  | none => d
  | some n =>
    let h := d.ringHead n
    let got := (data.take (min 16 (d.ringUsed n))).map (fun (x : Option Bytes) => x.map (fun b => slice b 0 64))
    let k := d.host.fetches
    let div := match d.ringMapOf n with
      | some m => decide (m.channel < 16) && d.assists m.channel && (d.ich m.channel).diverting
      | none => false
    let items : List Fetched :=
      (List.range got.length).map (fun i => { index := (h + i) % 2 ^ 32, serial := k + i, div, desc := got.getD i none })
    let r := d.ring n
    let d := d.setRing n { r with fetched := r.fetched ++ items, open_ := r.open_ ++ items.map (·.serial) }
    let d := { d with host := { d.host with lastFetch := n, fetches := k + got.length } }
    (d.wn (rngReg n 0x10) (h + got.length)).skim n

/-! Mapped rings (R147 to R149) -/

/-- The checks of R151 that COPY_IN and IN_PLACE share, 3 to 6: a refusal, or the address of the data. -/
def Dev.dataChecks (d : Dev) (b : Bytes) (unused : Bool) : Except (Status × Nat) Nat :=
  if !Dsc.headOk b ∨ !unused then .error (.descInvalid, 3)
  else if Dsc.length b = m32 then .error (.descInvalid, 4)
  else match d.alloc (Dsc.alloc b) with
    | none => .error (.descInvalid, 5)
    | some a => if a.size < Dsc.offset b + Dsc.length b then .error (.lenRange, 0x10) else .ok (a.base + Dsc.offset b)

/-- What a descriptor of a channel's ring is (R160, R171, R178). -/
inductive ChanUse where
  | bad | ignored | data
  /-- The result of a ticket, whose task has been written, or has not yet. -/
  | result (k : Ticket) (t : Option Task)
  deriving DecidableEq, Repr

/-- A packet of a descriptor is still on its way. -/
def Dev.underway (d : Dev) (q serial : Nat) : Bool :=
  let mine (a : Arrival) : Bool := match a.origin with | some o => o.serial == serial && o.op != 0x48 | none => false
  (d.quad q).inbound.any (fun e => mine e.2) || (d.quad q).held.any (fun e => mine e.2)

def Dev.chanUse (d : Dev) (o : Origin) (m : RingMap) (b : Bytes) : ChanUse :=
  let x := d.ich m.channel
  let arg := Dsc.arg b
  let col := bits arg 15 0
  if Dsc.tag b ≠ 0 then .bad
  else if bit arg 31 then
    if bits arg 30 24 ≠ 0 then .bad
    else match x.tickets.find? (fun k => k.ticket == bits arg 23 0) with
      | none => .bad
      | some k => (match d.ticketTask m.channel k with
        | some t => .result k (some t)
        | none => if d.underway m.quad k.serial then .result k none else .bad)
  else if bits arg 29 16 ≠ 0 ∨ !(if fld x.params 1 1 = 1 then col < fld x.params 8 2 || col == 0xFFFF else col == 0) then .bad
  else if d.cacheMode m.channel = 2 ∧ x.sealAt ≤ o.serial then (if bit arg 30 ∧ Dsc.length b = 0 then .ignored else .bad)
  else .data

/-- The task of a descriptor whose data is in place (R147, R177). A channel's descriptors always make entries of their own
(DEDUCED, log entry 96). -/
def Dev.dataTask (d : Dev) (o : Origin) (m : RingMap) (b : Bytes) (addr : Nat) : Dev :=
  let len := Dsc.length b
  let own := decide (m.channel < 16)
  let pkt (role opcount slot : Nat) : Bytes :=
    mkPkt m.quad role 0 0xFFFF m.lane opcount slot m.pri (Dsc.tag b) addr len (Dsc.arg b)
  if own && d.diverts o then
    (d.assistEvent m.channel o addr len (Dsc.arg b)).send m.quad 0 { pkt := pkt 1 2 0, sender := 0xFFFF, origin := some o, own }
  else d.send m.quad 0 { pkt := pkt m.role (m.slot + 1) m.slot, sender := 0xFFFF, origin := some o, own }

/-- COPY_IN and IN_PLACE once R151 checks 3 to 6 have passed: `move` puts the data in place. -/
def Dev.dataIn (d : Dev) (o : Origin) (m : RingMap) (b : Bytes) (addr : Nat) (move : Dev → Option Dev) : Option Dev :=
  let go (f : Dev → Dev) : Option Dev := some (match move d with
    | some d' => f d'
    | none => d.refuse o .descInvalid 6)
  if 16 ≤ m.channel then go (fun d => d.dataTask o m b addr)
  else match d.chanUse o m b with
    | .bad => some (d.refuse o .descInvalid 0)
    | .ignored => some (d.refuse o .ok 0)
    | .data => go (fun d => d.dataTask o m b addr)
    | .result _ none => none
    | .result k (some t) =>
      let pkt := mkPkt m.quad 1 0 0xFFFF m.lane 2 1 m.pri t.tag.toNat addr (Dsc.length b) t.arg
      go (fun d => (d.answerTicket m.channel k t { pkt, sender := 0xFFFF }).complete o none .ok 0 (Dsc.length b))

/-- COPY_IN (R147). `data` is what the host's memory gives, none for an error. -/
def Dev.copyIn (d : Dev) (n : Nat) (data : Option Bytes) : Dev :=
  d.descriptor n 1 (fun d o b =>
    match d.dataChecks b (zeroAt b 44 20), d.ringMapOf n with
    | .error (st, c), _ => some (d.refuse o st c)
    | .ok addr, some m => d.dataIn o m b addr (fun d =>
        if Dsc.length b = 0 then some d else data.map (fun x => d.mwrite addr (slice x 0 (Dsc.length b))))
    | .ok _, none => none)

/-- IN_PLACE (R147). -/
def Dev.inPlace (d : Dev) (n : Nat) : Dev :=
  d.descriptor n 2 (fun d o b =>
    match d.dataChecks b (zeroAt b 16 8 && zeroAt b 44 20), d.ringMapOf n with
    | .error (st, c), _ => some (d.refuse o st c)
    | .ok addr, some m => d.dataIn o m b addr some
    | .ok _, none => none)

/-- RX_BUFFER (R148): the buffers of a completion ring stand in fetch order, whichever rings they come from. -/
def Dev.rxBuffer (d : Dev) (n : Nat) : Dev :=
  d.descriptor n 3 (fun d o b =>
    match d.ringMapOf n with
    | none => none
    | some m =>
      if !Dsc.headOk b ∨ !zeroAt b 28 36 then some (d.refuse o .descInvalid 3)
      else if Dsc.length b = m32 then some (d.refuse o .descInvalid 4)
      else if m.channel < 16 then some (d.refuse o .descInvalid 0)
      else some (d.setRing m.cplRing { d.ring m.cplRing with
        buffers := insertBy (fun x y => x.1.serial ≤ y.1.serial) (o, Dsc.host b, Dsc.length b) (d.ring m.cplRing).buffers }))

/-- CMP_JOB (R149, R331): a matching-store entry of the ring-map quadrant, in the ring's lane, once the packets of the ring's
earlier descriptors have theirs. -/
def Dev.cmpJob (d : Dev) (n : Nat) : Dev :=
  d.descriptor n 4 (fun d o b =>
    match d.ringMapOf n with
    | none => none
    | some m =>
      if !Dsc.headOk b then some (d.refuse o .descInvalid 3)
      else match d.jobChecks b with
        | some (st, c) => some (d.refuse o st c)
        | none =>
          let d := d.accrue m.quad
          let x := d.quad m.quad
          let free := 4096 - x.occ
          if m.channel < 16 then some (d.refuse o .descInvalid 0)
          else if free ≤ d.rf (qdrReg m.quad 8) 12 0 ∨ d.ringUnderway m.quad n then none
          else
            let used := x.tasks.filterMap (fun t => if t.holds then t.idx else none)
            let i := nthFree used 4096 0 (Config.freePick d.free free % free)
            let t : Task :=
              { uid := x.nextUid, idx := some i, role := 255, lane := m.lane, tag := BitVec.ofNat 48 (Dsc.tag b), opcount := 0
                pri := m.pri, phase := .held, params := b, origin := some o }
            some (({ (d.setQuad m.quad { x with tasks := x.tasks ++ [t], nextUid := x.nextUid + 1 }) with free := d.free + 1 }).promote m.quad))

/-! Ring 0 (R150) -/

/-- A ring-0 command: its unused bytes are zero from `used` on, and it completes with what `f` answers. -/
def Dev.admin (d : Dev) (op used : Nat) (f : Dev → Origin → Bytes → Dev) : Dev :=
  d.descriptor 0 op (fun d o b =>
    some (if !Dsc.headOk b ∨ !zeroAt b used (64 - used) then d.complete o none .descInvalid 3 0 else f d o b))

def Dev.nop (d : Dev) : Dev := d.admin 0x40 16 (fun d o _ => d.complete o none .ok 0 0)

/-- R58 for a record that joins the seated configuration: the first failing check. -/
def Dev.recordBad (d : Dev) (raw : Bytes) : Option Status :=
  let a := allocRec raw false
  match allocBad d [] (d.alloc a.id).isSome raw with
  | some st => some st
  | none =>
    if a.kind = 3 ∧ d.rn (PLT + 0x24) < replicaSum (d.plt.allocs ++ [a]) a.unit then some .lenRange
    else if d.plt.allocs.any (allocClash a) then some .platConflict else none

/-- ALLOC_ADD. -/
def Dev.allocAdd (d : Dev) : Dev :=
  d.admin 0x42 48 (fun d o b =>
    let raw := slice b 16 32
    let a := allocRec raw false
    if a.size = 2 ^ 64 - 1 then d.complete o none .descInvalid 4 0
    else if a.kind = 0 ∧ !d.plt.seated then d.complete o none .descInvalid 0 0
    else match d.recordBad raw with
      | some st => d.complete o none st 0 0
      | none =>
        let d := { d with plt := { d.plt with allocs := d.plt.allocs ++ [a] } }
        (if bit a.flags 2 then d.mzero a.base a.size else d).complete o none .ok 0 0)

/-- A descriptor that has not completed names a record (R150): one fetched, a compression job, or a packet with its data. -/
def Dev.ringNames (d : Dev) (a : Alloc) : Bool :=
  let names (b : Bytes) : Bool := ((Dsc.op b == 1 || Dsc.op b == 2) && Dsc.alloc b == a.id)
    || (Dsc.op b == 4 && (Job.inAlloc b == a.id || Job.outAlloc b == a.id))
  let within (x : Arrival) : Bool := x.origin.isSome && x.refused.isNone && a.base ≤ Pkt.payload x.pkt && Pkt.payload x.pkt < a.base + a.size
  d.host.rings.any (fun e => e.1 != 0 && e.2.fetched.any (fun f => names (f.desc.getD [])))
    || d.quads.any (fun e => e.2.inbound.any (fun x => within x.2) || e.2.held.any (fun x => within x.2)
        || e.2.tasks.any (fun t => (t.role == 255 && t.phase != .finished && names t.params) || t.slots.any (fun x => within x.2)))

/-- The owner of a record is at work: its seat is not IDLE, or its tutor has RUN set (R150). -/
def Dev.ownerBusy (d : Dev) (a : Alloc) : Bool :=
  match denseSeat a.owner with
  | none => false
  | some s => (d.seat s).role != 0 || (match seatTutor s with | some t => d.rbit (tutorRegs t) 0 | none => false)

/-- ALLOC_FREE. -/
def Dev.allocFree (d : Dev) : Dev :=
  d.admin 0x43 20 (fun d o b =>
    match d.alloc (fld b 16 4) with
    | none => d.complete o none .descInvalid 5 0
    | some a =>
      if a.fromPlat ∨ d.tds.any (fun t => t.2.alloc == a.id) ∨ d.ringNames a ∨ d.ownerBusy a then d.complete o none .descInvalid 0 0
      else ({ d with plt := { d.plt with allocs := d.plt.allocs.filter (fun r => r.id != a.id) } }).complete o none .ok 0 0)

/-- TDESC_CREATE (R245, R249). `data` is the job's bytes, none for a host error. -/
def Dev.tdescCreate (d : Dev) (data : Option Bytes) : Dev :=
  d.admin 0x44 28 (fun d o b =>
    let len := Dsc.length b
    if len = m32 then d.complete o none .descInvalid 4 0
    else match data with
      | none => if 4096 < len then d.complete o none .lenRange 0x11 0 else d.complete o none .descInvalid 6 0
      | some x =>
        let x := slice x 0 len
        if jobAllOnes x then d.complete o none .descInvalid 4 0
        else match d.alloc (fld x 0 4) with
          | none => d.complete o none .descInvalid 5 0
          | some a =>
            if 4096 < len then d.complete o none .lenRange 0x11 0
            else let r := d.tdCreate x len a; r.1.complete o none r.2.1 0 r.2.2)

/-- TDESC_DESTROY (R254): it completes when the descriptor is removed. -/
def Dev.tdescDestroy (d : Dev) : Dev :=
  d.admin 0x45 20 (fun d o b =>
    if d.tdNamed (fld b 16 4) then d.tdMark (fld b 16 4) o else d.complete o none .descInvalid 5 0)

/-- FRAG_APPLY (R74). -/
def Dev.fragApply (d : Dev) : Dev :=
  d.admin 0x46 18 (fun d o b =>
    if (tfind d.plt.frags (fld b 16 2)).isSome then
      ({ d with plt := { d.plt with armed := d.plt.armed ++ [(none, fld b 16 2)] } }).complete o none .ok 0 0
    else d.complete o none .descInvalid 5 0)

/-- FRAG_WITHDRAW (R150). -/
def Dev.fragWithdraw (d : Dev) : Dev :=
  d.admin 0x47 18 (fun d o b =>
    let id := fld b 16 2
    if (tfind d.plt.frags id).isNone then d.complete o none .descInvalid 5 0
    else if d.plt.armed.any (fun a => a.2 == id) then
      ({ d with plt := { d.plt with withdrawn := d.plt.withdrawn ++ [id] } }).complete o none .ok 0 0
    else
      let d := { d with plt := { d.plt with frags := tdel d.plt.frags id } }
      (d.wn (PLT + 0x38) d.plt.frags.length).complete o none .ok 0 0)

/-- TASK_INJECT (R99, R150): it completes once its packet is written or refused. -/
def Dev.taskInject (d : Dev) : Dev :=
  d.admin 0x48 48 (fun d o b =>
    let p := slice b 16 32
    if Pkt.length p = m32 ∨ Pkt.opcount p = 7 then d.complete o none .descInvalid 4 0
    else d.send (Pkt.quad p) 3 { pkt := d.resubmitted p, sender := 0xFFFF, origin := some o })

/-- CANCEL (R94, R152). -/
def Dev.cancelDesc (d : Dev) : Dev :=
  d.admin 0x49 26 (fun d o b =>
    if bits (fld b 17 1) 7 3 ≠ 0 then d.complete o none .descInvalid 3 0
    else if 3 < fld b 16 1 then d.complete o none .descInvalid 0 0
    else
      let r := d.cancel (bits (fld b 17 1) 2 0) (fld b 16 1) (fld b 18 2) (fld b 20 6)
      r.1.complete o none .ok 0 (min r.2.1 0xFFFF + min r.2.2 0xFFFF * 0x10000))

/-! PLAT_LOAD (R69, R70, R150, R419) -/

/-- The load report and the completion of a refused load. -/
def Dev.platRefused (d : Dev) (o : Origin) (report : Nat) (e : LoadErr) (id frag : Nat) : Dev :=
  (d.emit (.hostWrite report (loadReport (some e) id) false)).complete o none e.status 0 frag

/-- The signature of a Plat is checked by the security block; the rest by the device. -/
def State.platCheck (s : State) (d : Dev) (o : Origin) (report len : Nat) (x : Bytes) : State :=
  let (ok, s) := if headerOk x len then s.verifyTail [2, 3] x else (false, s)
  { s with dev := match checkPlat d d.station ok x len with
    | .error e => d.platRefused o report e (fld x 16 8) (if fld x 6 1 = 1 then fld x 14 2 else 0)
    | .ok p =>
      if p.kind = 1 ∧ (tfind d.plt.frags p.fragId).isNone ∧ 64 ≤ d.plt.frags.length then
        d.platRefused o report { status := .descInvalid } p.id p.fragId
      else (d.emit (.hostWrite report (loadReport none p.id) false)).acceptPlat p o }

/-- PLAT_LOAD. `data` is the Plat's bytes, none for a host error. -/
def State.platLoad (s : State) (data : Option Bytes) : State :=
  let d := s.dev.skim 0
  match d.front 0 with
  | some { index, serial, div, desc := some b } =>
    if Dsc.op b ≠ 0x41 then { s with dev := d }
    else
      let o := originOf 0 { index, serial, div, desc := some b }
      let d := d.pop 0
      let len := Dsc.length b
      let done (d : Dev) : State := { s with dev := d.skim 0 }
      if !Dsc.headOk b ∨ !zeroAt b 28 4 ∨ !zeroAt b 40 24 then done (d.complete o none .descInvalid 3 0)
      else if len = m32 then done (d.complete o none .descInvalid 4 0)
      else if 0x10000000 < len then done (d.complete o none .lenRange 0x11 0)
      else match data with
        | none => done (d.complete o none .descInvalid 6 0)
        | some x =>
          if !d.stagingOk then done (d.platRefused o (fld b 32 8) { status := .lenRange } (fld x 16 8) 0)
          else
            let s' := s.platCheck d o (fld b 32 8) len (slice x 0 len)
            { s' with dev := s'.dev.skim 0 }
  | _ => { s with dev := d }

/-! PERST# (R414, R418) -/

/-- PERST# changes: low resets the host link; high lets a boot that waits for it reach stage 6. -/
def State.perst (s : State) (low : Bool) : State :=
  let was := s.care.perstLow
  let s : State := { s with care := { s.care with perstLow := low } }
  if low ∧ !was then s.setDev (fun d => d.linkReset false)
  else if !low ∧ s.running ∧ s.care.run.stage = 5 ∧ s.care.run.linksDone then s.reachHost
  else s

end Sys2Proof.Machine
end

