-- ==== Sys2Proof/Machine/Select.lean ====
section
/-! DEFINITION. Top-k and threshold selection: the SELECT role (R312 to R329). -/
namespace Sys2Proof.Machine

/-- A selection operation entry. -/
structure SelOp where
  op : Nat
  smallest : Bool
  part : Bool
  idx64 : Bool
  inp : Nat
  out : Nat
  k : Nat
  workExp : Int
  handle : Nat
  maxOut : Nat
  thr : Int
  pieceLen : Nat
  pieceStep : Nat
  base : Nat
  deriving DecidableEq, Repr, Inhabited

def selOp (p : Bytes) (i : Nat) : SelOp :=
  let e := slice p (16 + 48 * i) 48
  let m := fld e 1 1
  { op := fld e 0 1, smallest := bit m 0, part := bit m 1, idx64 := bit m 2, inp := fld e 2 2, out := fld e 4 2, k := fld e 6 1
    workExp := sx 8 (fld e 7 1), handle := fld e 8 4, maxOut := fld e 12 4, thr := sx 64 (fld e 16 8), pieceLen := fld e 24 4
    pieceStep := fld e 28 4, base := fld e 32 8 }

/-- Global index of a position. -/
def SelOp.index (o : SelOp) (pos : Nat) : Nat := (o.base + pos) % 2 ^ 64

/-- A task without IDX64 over the positions below n could meet the sentinel as an index (R318). -/
def SelOp.tooFar (o : SelOp) (n : Nat) : Bool := !o.idx64 && n != 0 && 0xFFFFFFFF ≤ o.base + (n - 1)

/-- The key of R315: a is at least as good as b. -/
def keyLe (smallest : Bool) (a b : Int × Nat) : Bool :=
  if a.1 = b.1 then a.2 ≤ b.2 else if smallest then decide (a.1 < b.1) else decide (b.1 < a.1)

/-- A row's result: entries (score, index), TIE_OVERFLOW, THR_TRUNC, TOTAL. -/
structure SelRow where
  entries : List (Int × Nat)
  tie : Bool := false
  trunc : Bool := false
  total : Nat := 0
  first : Nat := 0
  deriving DecidableEq, Repr, Inhabited

/-- The best k of some entries, with the flag that an equal of the last one was left out (R317, R319). -/
def bestK (smallest : Bool) (k : Nat) (l : List (Int × Nat)) : List (Int × Nat) × Bool :=
  let s := sortBy (keyLe smallest) l
  let top := s.take k
  let tie := match top.getLast? with | some e => decide (top.length = k) && (s.drop k).any (fun x => x.1 == e.1) | none => false
  (top, tie)

/-- TOPK of a row's valid elements (R317 to R319). With k = 0 no score is read. -/
def topRow (o : SelOp) (k : Nat) (l : List (Int × Nat)) : SelRow :=
  if k = 0 then { entries := [] }
  else let (e, t) := bestK o.smallest k l; { entries := e, tie := t, total := Nat.min l.length 0xFFFFFFFF }

/-- THRESH of a row's valid elements, in position order (R320). -/
def thrRow (o : SelOp) (l : List (Int × Nat)) : SelRow :=
  let p := l.filter (fun x => if o.smallest then decide (x.1 < o.thr) else decide (o.thr < x.1))
  { entries := p.take o.maxOut, trunc := decide (o.maxOut < p.length), total := Nat.min p.length 0xFFFFFFFF }

def SelRow.flags (r : SelRow) : Nat := b2n r.tie + 2 * b2n r.trunc

/-- A final record (R321). -/
def finalRecord (idx64 : Bool) (cap : Nat) (r : SelRow) : Bytes :=
  let iw := if idx64 then 8 else 4
  padMul 8 (leB 2 r.entries.length ++ leB 1 r.flags ++ leB 1 0 ++ leB 4 r.total ++ r.entries.flatMap (fun e => leB iw e.2)
    ++ (List.range (cap - r.entries.length)).flatMap (fun _ => leB iw (2 ^ 64 - 1)))

def finalBytes (idx64 : Bool) (cap : Nat) : Nat := upTo (8 + cap * (if idx64 then 8 else 4)) 8

/-- A partial record (R322). -/
def partialRecord (cap : Nat) (r : SelRow) : Bytes :=
  leB 2 r.entries.length ++ leB 1 r.flags ++ leB 1 0 ++ leB 4 r.total ++ leB 8 r.first
    ++ r.entries.flatMap (fun e => leB 8 (tc 64 e.1) ++ leB 8 e.2) ++ zeros (16 * (cap - r.entries.length))

/-- A selection block (R321). -/
def selBlock (tag op : Nat) (part smallest idx64 : Bool) (workExp : Int) (cap : Nat) (rows : List SelRow) : Bytes :=
  let rb := if part then 16 + cap * 16 else finalBytes idx64 cap
  leB 8 tag ++ leB 4 rows.length ++ leB 1 (b2n part + 2 * b2n smallest + 4 * b2n idx64) ++ leB 1 op ++ leB 1 (tc 8 workExp) ++ leB 1 0
    ++ leB 4 cap ++ leB 4 rb ++ zeros 8 ++ rows.flatMap (fun r => if part then partialRecord cap r else finalRecord idx64 cap r)

/-- Count rows in a tile's registers (R329); a top-k row below k is short. -/
def Dev.selCount (d : Dev) (s : Nat) (topK : Option Nat) (rows : List SelRow) : Dev :=
  let n (f : SelRow → Bool) : Nat := (rows.filter f).length
  let b (d : Dev) (o x : Nat) : Dev := if x = 0 then d else d.bump (tilReg s o) x
  b (b (b (b d 0x84 rows.length) 0x88 (match topK with | some k => n (fun r => decide (r.entries.length < k)) | none => 0))
    0x8C (n (·.tie))) 0x90 (n (·.trunc))

/-- A task completes with DESC_INVALID (R328). -/
def Dev.selRefuse (d : Dev) (s q uid : Nat) : Dev := (d.bump (tilReg s 0x9C)).workFail q uid .descInvalid

/-- Write a task's one output and end it; with no free slot nothing has happened. What the task counted before its output failed
stands (R210). -/
def Dev.selOut (d0 d : Dev) (q : Nat) (t : Task) (out : Bytes) (count : Dev → Dev) : Dev :=
  match d.place (fld t.params 4 4) (fld t.params 8 4) [out] with
  | .wait => d0
  | .full => (count d).workFail q t.uid .outputFull
  | .done rs d => (count d).workDone q t.uid .ok rs

/-- One row by TOPK or THRESH. -/
def SelOp.row (o : SelOp) (k : Nat) (l : List (Int × Nat)) : SelRow := if o.op = 0x70 then topRow o k l else thrRow o l

/-- Batch form (R313, R316, R321). -/
def Dev.selBatch (d : Dev) (s q : Nat) (t : Task) (o : SelOp) (k : Nat) : Dev :=
  let (e, data) := d.operandData t 0
  let format (d : Dev) : Dev := (d.bump (tilReg s 0x7C)).workFail q t.uid .format
  match data with
  | none => e.workFail q t.uid .eccUncorrectable
  | some raw =>
    match d.readBatch raw with
    | none => format e
    | some b =>
      match b.col o.inp with
      | none => format e
      | some c =>
        if c.depth ≠ 1 || !isInt c.type || (b.col o.out).isSome then format e
        else
          let offs := ((c.arrays b.samples).1.head?).getD []
          let len (i : Nat) : Nat := offs.getD (i + 1) 0 - offs.getD i 0
          let longest := (List.range b.samples).foldl (fun m i => Nat.max m (len i)) 0
          if o.tooFar longest then e.selRefuse s q t.uid
          else
            let reads := !(o.op == 0x70 && k == 0)
            let works (i : Nat) : List (Option (Int × Bool)) := (List.range (len i)).map (fun p =>
              if b.valid.getD i false then c.work b.samples o.workExp (offs.getD i 0 + p) else none)
            let els (i : Nat) : List (Option (Int × Nat)) := (works i).zipIdx.map (fun x => x.1.map (fun w => (w.1, o.index x.2)))
            let all := if reads then (List.range b.samples).flatMap works else []
            let bad := (all.filter (·.isNone)).length
            let sat := (all.filter (fun x => x.any (·.2))).length
            let rows := (List.range b.samples).map (fun i =>
              if b.valid.getD i false then some (o.row k ((els i).filterMap id)) else none)
            let cap := if o.op = 0x70 then k else o.maxOut
            let col := mkCol o.out 0xD 0 (finalBytes o.idx64 cap) [] (rows.map (·.map (finalRecord o.idx64 cap))) []
            let out := ({ b with cols := b.cols ++ [col] } : DBatch).bytes
            let full := match e.place (fld t.params 4 4) (fld t.params 8 4) [out] with | .full => true | _ => false
            d.selOut e q t out (fun d =>
              let d := (d.selCount s (if o.op = 0x70 then some k else none) (rows.filterMap id)).colCount s { sat, ovf := b2n full }
              if bad = 0 then d else d.bump (tilReg s 0x98) bad)

/-- Score of a tensor element, and whether it clamped (R212, R315). -/
def Dev.tdScore (d : Dev) (x : TDesc) (f : Int) (i : List Nat) : Int × Bool :=
  let q := d.elemAt x.etype (x.addr i) (i.getD 0 0)
  let v := if x.scaled then let w := d.mnum (x.scaleAddr i) 2; (Frac.pow2 (q * sclM w) (sclE w - f)).rne else q
  (clampI i64Min i64Max v, clampI i64Min i64Max v != v)

/-- Tensor form (R313, R323). -/
def Dev.selTensor (d : Dev) (s q : Nat) (t : Task) (o : SelOp) (k p : Nat) : Dev :=
  match d.tdesc o.handle (q, t.uid) with
  | none => d.selRefuse s q t.uid
  | some x =>
    let ext := x.extent.getD 0 0
    let lo := p * o.pieceStep
    let hi := Nat.min (lo + o.pieceLen) ext
    if ext ≤ lo ∨ 2 < x.rank ∨ (x.scaled ∧ x.axis ≠ 0) ∨ o.tooFar hi then
      d.selRefuse s q t.uid
    else
      let nrows := if x.rank = 2 then x.extent.getD 1 1 else 1
      let reads := !(o.op == 0x70 && k == 0)
      let line (r : Nat) : List (List Nat) := (List.range (hi - lo)).map (fun i => x.parent [lo + i, r])
      let ranges := if reads then (List.range nrows).flatMap (fun r => (line r).flatMap (fun i =>
        (x.addr i, etypeBytes x.etype) :: (if x.scaled then [(x.scaleAddr i, 2)] else []))) else []
      let (e, bad) := d.touchAll ranges
      let half := if reads then ((List.range nrows).map (fun r => x.halfRuns (line r))).foldl (· + ·) 0 else 0
      let e := if half = 0 then e else e.bump (MEM + 0x31014) half
      if bad then e.workFail q t.uid .eccUncorrectable
      else
        let works := (List.range nrows).map (fun r => (List.range (hi - lo)).map (fun i => e.tdScore x o.workExp (x.parent [lo + i, r])))
        let sat := if reads then (works.flatten.filter (·.2)).length else 0
        let rows := works.map (fun l => { o.row k (l.zipIdx.map (fun y => (y.1.1, o.index (lo + y.2)))) with first := o.index lo })
        let cap := if o.op = 0x70 then k else o.maxOut
        d.selOut e q t (selBlock t.tag.toNat o.op o.part o.smallest o.idx64 o.workExp cap rows)
          (fun d => (d.selCount s (if o.op = 0x70 then some k else none) rows).colCount s { sat })

/-! The merge pass (R324, R325) -/

/-- A selection block as a merge reads it. -/
structure SelIn where
  op : Nat
  smallest : Bool
  workExp : Nat
  cap : Nat
  rows : List SelRow
  deriving DecidableEq, Repr, Inhabited

/-- Read a partial block; none where it is not one. -/
def selIn (raw : Bytes) : Option SelIn :=
  let n := fld raw 8 4
  let kind := fld raw 12 1
  let op := fld raw 13 1
  let cap := fld raw 16 4
  let rb := fld raw 20 4
  if raw.length < 32 ∨ !bit kind 0 ∨ 8 ≤ kind ∨ (op ≠ 0x70 ∧ op ≠ 0x71) ∨ rb ≠ 16 + cap * 16 ∨ raw.length < 32 + n * rb then none
  else some { op, smallest := bit kind 1, workExp := fld raw 14 1, cap
              rows := (List.range n).map (fun i =>
                let r := slice raw (32 + i * rb) rb
                { entries := (List.range (Nat.min cap (fld r 0 2))).map (fun j => (sx 64 (fld r (16 + 16 * j) 8), fld r (24 + 16 * j) 8))
                  tie := bit (fld r 2 1) 0, trunc := bit (fld r 2 1) 1, total := fld r 4 4, first := fld r 8 8 }) }

/-- Entries of several records, those of the record that counts first first, later copies of an index left out: what is
kept, and how many were not. -/
def uniteRows (rs : List SelRow) : List (Int × Nat) × Nat :=
  (sortBy (fun (a b : SelRow) => a.first ≤ b.first) rs).foldl (fun (a : List (Int × Nat) × Nat) r =>
    r.entries.foldl (fun a e => if a.1.any (fun x => x.2 == e.2) then (a.1, a.2 + 1) else (a.1 ++ [e], a.2)) a) ([], 0)

/-- Row r of a merge: the row and the duplicates it discarded. -/
def mergeRow (op : Nat) (smallest : Bool) (cap : Nat) (ins : List (Nat × SelRow)) : SelRow × Nat :=
  let rs := ins.map (·.2)
  let (l, dup) := uniteRows rs
  let first := rs.foldl (fun m r => Nat.min m r.first) (2 ^ 64 - 1)
  let total := Nat.min ((rs.map (·.total)).foldl (· + ·) 0) 0xFFFFFFFF
  if op = 0x70 then
    let (e, tie) := bestK smallest cap l
    let below := match e.getLast? with
      | some x => e.length == cap && ins.any (fun i => i.2.entries.length == i.1 && i.2.tie
          && (match i.2.entries.getLast? with | some y => y.1 == x.1 | none => false))
      | none => false
    ({ entries := e, tie := tie || below, total, first }, dup)
  else
    let s := sortBy (fun (a b : Int × Nat) => a.2 ≤ b.2) l
    ({ entries := s.take cap, trunc := decide (cap < s.length) || rs.any (·.trunc), total, first }, dup)

/-- Read the operands of a merge in slot order. -/
def Dev.selInputs (d : Dev) (t : Task) : Dev × Option (List (Option SelIn)) :=
  (List.range t.opcount).foldl (fun (a : Dev × Option (List (Option SelIn))) i =>
    let (d, b) := a.1.operandData t i
    match a.2, b with
    | some l, some raw => (d, some (l ++ [selIn raw]))
    | _, _ => (d, none)) (d, some [])

/-- MERGE (R324). -/
def Dev.selMerge (d : Dev) (s q : Nat) (t : Task) (o : SelOp) (k : Nat) : Dev :=
  let (e, ins) := d.selInputs t
  match ins with
  | none => e.workFail q t.uid .eccUncorrectable
  | some l =>
    match l.filterMap id with
    | [] => e.workFail q t.uid .format
    | h :: _ =>
      let bs := l.filterMap id
      let cap := if h.op = 0x70 then k else o.maxOut
      if l.any (·.isNone) ∨ bs.any (fun b => b.op != h.op || b.smallest != h.smallest || b.workExp != h.workExp
          || b.rows.length != h.rows.length || b.cap < cap) then e.workFail q t.uid .format
      else
        let res := (List.range h.rows.length).map (fun r =>
          mergeRow h.op h.smallest cap (bs.map (fun b => (b.cap, b.rows.getD r default))))
        let rows := res.map (·.1)
        let dup := (res.map (·.2)).foldl (· + ·) 0
        if !o.idx64 && bs.any (fun b => b.rows.any (fun r => r.entries.any (fun e => 0xFFFFFFFF ≤ e.2))) then e.selRefuse s q t.uid
        else d.selOut e q t (selBlock t.tag.toNat h.op o.part h.smallest o.idx64 (sx 8 h.workExp) cap rows) (fun d =>
          let d := d.selCount s (if h.op = 0x70 then some k else none) rows
          if dup = 0 then d else d.bump (tilReg s 0x94) dup)

/-- SELECT_TASK (R314, R328). -/
def Dev.selectTask (d : Dev) (s : Nat) : Dev :=
  match d.atWork s 10 with
  | none => d
  | some (q, t) =>
    let i := bits t.arg 7 0
    let p := bits t.arg 19 8
    let o := selOp t.params i
    let k := if bit t.arg 20 then bits t.arg 27 21 else o.k
    if bits t.arg 31 28 ≠ 0 ∨ fld t.params 0 2 ≤ i ∨ (bit t.arg 20 ∧ o.op = 0x71) ∨ 64 < k
        ∨ (p ≠ 0 ∧ (o.op = 0x72 ∨ o.inp ≠ 0xFFFF)) then d.selRefuse s q t.uid
    else if o.op = 0x72 then d.selMerge s q t o k
    else if o.inp ≠ 0xFFFF then d.selBatch s q t o k
    else d.selTensor s q t o k p

/-- SEL_STATUS (R329). -/
def Dev.selStatus (d : Dev) (s : Nat) : Nat :=
  match d.atWork s 10 with
  | none => 0
  | some (_, t) =>
    let op := (selOp t.params (bits t.arg 7 0)).op
    1 + at_ (b2n (op == 0x71)) 1 + at_ (b2n (op == 0x72)) 2

end Sys2Proof.Machine
end

