-- ==== Sys2Proof/Machine/Regs.lean ====
section
/-! DEFINITION. Register writes with what they set off, and register reads (R5, R122, R126 to R131): one operation that every
access goes through. Addresses are canonical (R131). -/
namespace Sys2Proof.Machine

/-! Units by register address -/

/-- The tutor whose control register an address is (R111). -/
def tutorCtl (a : Nat) : Option Nat :=
  let o := a % 0x1000
  if TILW ≤ a ∧ a < CLUW then (if o = 0xC0 then some (denseTile ((a - TILW) / 0x1000)) else none)
  else if CLUW ≤ a ∧ a < QDRW then (if o = 0x4C0 then some (1152 + denseCluster ((a - CLUW) / 0x1000)) else none)
  else if QDRW ≤ a ∧ a < PRTW then (if o = 0xC0 then some (1224 + (a - QDRW) / 0x1000) else none)
  else if PRTW ≤ a ∧ a < PRTW + 0x6000 then (if o = 0xC0 then some (1232 + (a - PRTW) / 0x1000) else none)
  else none

/-! Writing (R126 to R128) -/

/-- A held field is refused: the owner's WRITE_REFUSED is set; a stream's or queue pair's is its port's (R207). -/
def Dev.refuseHeld (d : Dev) (a : Nat) : Dev :=
  match (specOf a).ref with
  | none => d
  | some (r, b) =>
    if (ETH + 0x8000 ≤ a ∧ a < ETH + 0x18000) ∨ (ETH + 0x30000 ≤ a ∧ a < ETH + 0x38000) then
      d.wbit (ethReg (b2n (d.rbit (a - a % 0x40) 30)) 4) b true
    else d.wbit r b true

/-- Store the held, live and write-1-to-clear bits of a write under a mask (R5, R126, R128); `free` writes held fields of an
enabled block too (R68). -/
def Dev.put32 (d : Dev) (a : Nat) (mask v : Word) (free : Bool) : Dev :=
  let sp := specOf a
  let on := !free && (match sp.en with | some (r, b) => d.rbit r b | none => false)
  let h := BitVec.ofNat 32 sp.h &&& mask
  let take := (if on then 0#32 else h) ||| (BitVec.ofNat 32 sp.l &&& mask)
  let old := d.rr a
  let new := ((old &&& ~~~take) ||| (v &&& take)) &&& ~~~(BitVec.ofNat 32 sp.c &&& mask &&& v)
  let d := if new = old then d else d.wr a new
  if on && h != 0#32 then d.refuseHeld a else d

/-- A Plat that waits is seated at once, when nothing holds it (R71). -/
def Dev.switchNow (d : Dev) : Dev :=
  match d.plt.staged with
  | some (p, o) => if d.plt.seating || (d.plt.seated && (d.rbit PLT 2 || d.rbit PHT 31)) then d else d.beginSeating p o false
  | none => d

/-- TIL_CTL.CLEAR (R134). -/
def Dev.tileClear (d : Dev) (t : Nat) : Dev :=
  let d := d.zeroRegs (tilReg t 0xC) 3
  match (d.seat t).runSince with
  | some (n, _) => d.setSeat t { d.seat t with runSince := some (n, d.qcyc) }
  | none => d

/-- MEM_ERR_CLR and MEM_TD_CLR (R267, R359). -/
def Dev.memErrClear (d : Dev) : Dev :=
  (List.range 16).foldl (fun d n => (d.wn (memCh n 8) 0).wn (memCh n 12) 0) (d.wn (MEM + 0x14) 0)
def Dev.memTdClear (d : Dev) : Dev := (d.zeroRegs (MEM + 0x31004) 2).zeroRegs (MEM + 0x31010) 2

/-- RUN of a tutor changes, or its fault code is cleared (R111). -/
def Dev.tutorCtlWrite (d : Dev) (t : Nat) (was now_ clr : Bool) : Dev :=
  let d := if clr then d.setTutor t { d.tutor t with fault := 0 } else d
  if now_ && !was then d.restart t
  else if was && !now_ then d.setTutor t { d.tutor t with mode := .halted } else d

/-- What a write of a register of a small window sets off; `hit i` tells that write-only bit i was written 1. -/
def Dev.smallEffect (d : Dev) (a : Nat) (mask v old new : Word) : Dev :=
  let o := a % 0x1000
  let u := a % 0x100000 / 0x1000
  let hit (i : Nat) : Bool := mask.getLsbD i && v.getLsbD i
  match tutorCtl a with
  | some t => d.tutorCtlWrite t (old.getLsbD 0) (new.getLsbD 0) (hit 1)
  | none =>
    if a < CLUW then
      let t := denseTile ((a - TILW) / 0x1000)
      if o = 8 then
        let d := if hit 1 then d.tileClear t else d
        if hit 0 then d.tileFail t 4 0 else d
      else if o = 0x58 then (if hit 0 then d.zeroRegs (tilReg t 0x44) 5 else d)
      else if o = 0x60 then (if hit 0 then d.zeroRegs (tilReg t 0x64) 7 else d)
      else if o = 0xA0 then (if hit 0 then d.zeroRegs (tilReg t 0x84) 7 else d)
      else d
    else if a < QDRW then
      let c := denseCluster u
      if o = 8 then (if hit 0 then d.zeroRegs (cluReg c 0xC) 2 else d)
      else if o = 0x804 then (if hit 0 then (d.zeroRegs (cluReg c 0x808) 2).wn (cluReg c 0x814) 0 else d)
      else if o = 0x400 then
        let d := if hit 1 then d.zeroRegs (cluReg c 0x408) 10 else d
        if old.getLsbD 0 && !new.getLsbD 0 then d.replDisable c else d
      else d
    else if a < PRTW then
      if o = 0 then
        (if 8 ≤ u ∨ (d.quad u).laf.isEmpty ∨ old.getLsbD 2 = new.getLsbD 2 then d else d.raise (1224 + u) 5)
      else if o = 0x82C then (if hit 0 then d.cmpClear u else d)
      else if o = 0x8C0 then (if hit 0 then d.cmpSubmit u else d)
      else d
    else if u < 4 then
      if o = 0 then
        let d := if old.getLsbD 0 != new.getLsbD 0 then d.portEnable u else d
        if hit 1 then d.retrain u else d
      else if o = 0x104 then d.stData u ((v &&& mask).toNat)
      else if o = 0x108 then (if hit 0 then d.commitTable else d)
      else d
    else d

/-- What a write of a global register sets off. -/
def Dev.globalEffect (d : Dev) (a : Nat) (mask v old new : Word) : Dev :=
  let hit (i : Nat) : Bool := mask.getLsbD i && v.getLsbD i
  let rose := !old.getLsbD 31 && new.getLsbD 31
  let fell := old.getLsbD 31 && !new.getLsbD 31
  if a = PHT then (if rose then d.phtStart else if fell then d.phtStop.switchNow else d)
  else if a = PHT + 0x40 then d.bellIn 4 none
  else if a = PLT then (if old.getLsbD 2 && !new.getLsbD 2 && (!d.plt.seated || !d.rbit PHT 31) then d.switchNow else d)
  else if a = FLT then (if hit 31 then d.fltResume else d)
  else if a = FLT + 0x14 then d.fltAck (v &&& mask).toNat
  else if a = ATT + 0x20 then d.snapshot
  else if a = MEM + 0x20 then (if hit 0 then d.memErrClear else d)
  else if a = MEM + 0x31018 then (if hit 0 then d.memTdClear else d)
  else if MEM + 0x30000 ≤ a ∧ a < MEM + 0x31000 then
    (if a % 0x100 = 0x54 then d.ichCmd ((a - (MEM + 0x30000)) / 0x100) (v &&& mask).toNat else d)
  else if RNG + 0x100000 ≤ a ∧ a < FLD then
    (if a % 0x40 = 0 ∧ rose then (d.wbit a 31 false).ringOn ((a - (RNG + 0x100000)) / 0x40) else d)
  else if ETH + 0x8000 ≤ a ∧ a < ETH + 0x18000 then
    (if a % 0x40 = 0 then d.syncStreams [(a - (ETH + 0x8000)) / 0x40] else d)
  else if ETH + 0x20000 ≤ a ∧ a < ETH + 0x21000 then
    (if a % 0x100 = 0 then d.grpEnable ((a - (ETH + 0x20000)) / 0x100) (old.getLsbD 31) else d)
  else if ETH + 0x30000 ≤ a ∧ a < ETH + 0x38000 then
    (if a % 0x40 = 0 then (d.wbit a 29 false).setQp ((a - (ETH + 0x30000)) / 0x40) {} else d)
  else d

/-- Timetable words (R32), TTB_CTL and pin registers are written by their own rules. -/
def Dev.ownWrite (d : Dev) (a : Nat) (mask v : Word) (free : Bool) : Option Dev :=
  if TTB + 0x1000 ≤ a ∧ a < TTB + 0x3000 ∧ a % 32 = 4 then
    some (d.ttWriteB ((a - (TTB + 0x1000)) / 32) ((d.rr a &&& 0xC0FFFF00#32 &&& ~~~mask) ||| (v &&& mask)).toNat)
  else if TTB + 0x1000 ≤ a ∧ a < TTB + 0x3000 ∧ (a % 32 = 0 ∨ a % 32 = 8) ∧ d.rbit (a / 32 * 32 + 4) 31 then
    some (d.wbit (TTB + 4) 0 true)
  else if a = TTB then (if mask.getLsbD 31 then some (d.ttEnable (v.getLsbD 31)) else some d)
  else if GLB + 0x108 ≤ a ∧ a < GLB + 0x11C then
    let d := d.put32 a (mask &&& ~~~0x100#32) v free
    some (if mask.getLsbD 8 then d.setLevel ((a - (GLB + 0x108)) / 4 + 2) (v.getLsbD 8) else d)
  else none

/-- A write of a register under a mask: its fields, then what it sets off. A write with no mask bit changes nothing (R128). -/
def Dev.putReg (d : Dev) (a : Nat) (mask v : Word) (free : Bool) : Dev :=
  if mask = 0#32 then d
  else match d.ownWrite a mask v free with
    | some d' => d'
    | none =>
      let old := d.rr a
      let d := d.put32 a mask v free
      if isMasked a then d.smallEffect a mask v old (d.rr a) else d.globalEffect a mask v old (d.rr a)

/-- The mask of a 4-byte write: bits 31:16 of the word in the small windows (R128). -/
def writeMask (a : Nat) (v : Word) : Word := if isMasked a then v >>> 16 else 0xFFFFFFFF#32

/-- A 4-byte write of a register. -/
def Dev.regWrite (d : Dev) (a : Nat) (v : Word) : Dev := d.putReg a (writeMask a v) v false

/-- A pair of a REGISTERS section: PHT_ and TTB_ are held disabled for it (R68). -/
def Dev.regPair (d : Dev) (ofs v : Nat) : Dev :=
  let a := GLB + ofs
  d.putReg a 0xFFFFFFFF#32 (BitVec.ofNat 32 v) (decide (PHT ≤ a ∧ a < PLT))

/-! Reading -/

def tutorModeCode : TutorMode → Nat
  | .halted => 0 | .running => 1 | .waiting => 2 | .blocked => 3 | .faulted => 4

/-- Tutor registers as they read (R111): none for those that are held as written. -/
def Dev.tutorView (d : Dev) (t r : Nat) : Option Nat :=
  let x := d.tutor t
  match r with
  | 4 => some (at_ (tutorModeCode x.mode) 12 + x.fault % 256)
  | 8 => some x.pc.toNat
  | 0x10 => some x.faultPc.toNat
  | 0x14 => some (d.eventsNow t).toNat
  | _ => none

/-- Levels at the seven pins (R454). -/
def Dev.pinsIn (d : Dev) : Nat :=
  (List.range 7).foldl (fun n k => n + b2n (if k = 1 then d.pht.stepOutUntil.isSome
    else if 2 ≤ k ∧ d.pinRole k = 4 then d.rbit (pinCfg k) 8 else d.rbit (GLB + 0x100) k) * 2 ^ k) 0

def phtModeCode : PhtMode → Nat
  | .unlocked => 0 | .tracking => 1 | .holdover => 2

/-- Four bytes of a seat table. -/
def Dev.seatBytes (d : Dev) (n : Nat) (f : SeatSt → Nat) : Nat :=
  (List.range 4).foldl (fun a j => if 4 * n + j < 1302 then a + f (d.seat (4 * n + j)) % 256 * 256 ^ j else a) 0

/-- Milliseconds left on the grace timer (R412). -/
def Dev.graceLeft (d : Dev) : Nat :=
  if d.flt.timerRun then d.flt.limit - (d.now - d.flt.started) / msCycles else 0

/-- The route that holds a crossbar channel of a cluster (R61, R135). -/
def Dev.xbarRoute (d : Dev) (c k : Nat) : Option Route :=
  let at_ (ref : Nat) : Bool := match denseSeat ref with | some s => s < 1296 && seatCluster s == c | none => false
  d.plt.routes.find? (fun r => (r.srcChan == k && at_ r.src) || (r.dkind == 0 && r.dstChan == k && at_ r.dest))

/-- Tile registers that show the tile's state (R134, R286, R329). -/
def Dev.tileView (d : Dev) (t o : Nat) : Option Nat :=
  let x := d.seat t
  match o with
  | 4 => some (at_ (b2n (d.rbit (tilReg t 0xE0) 31)) 23 + at_ (b2n (d.quar t)) 22 + at_ (b2n (d.seatOpen t)) 21
      + at_ (b2n (decide (1 < x.slots.length))) 20 + at_ (b2n (d.running t).isSome) 19 + at_ x.epoch 8 + x.role)
  | 0x10 => some (sat32 (d.rn (tilReg t 0x10)) (match x.runSince with | some (_, c) => d.qcyc - c | none => 0))
  | 0x40 => some (d.mxStatus t)
  | 0x80 => some (d.selStatus t)
  | _ => if 0xC0 ≤ o ∧ o < 0xE0 then d.tutorView t (o - 0xC0) else none

/-- Cluster-window registers that show state (R135, R136, R311). -/
def Dev.cluView (d : Dev) (c o : Nat) : Option Nat :=
  if o = 4 then
    let g := (d.seat (1152 + c)).role
    some ((List.range 16).foldl (fun a t => a + b2n (d.seatOpen (c * 16 + t)) * 2 ^ t) 0
      + at_ (if g = 12 then 1 else if g = 13 then 2 else 0) 16 + at_ (b2n ((d.seat (1224 + c)).role == 14)) 18)
  else if 0x100 ≤ o ∧ o < 0x200 then
    some (match d.xbarRoute c ((o - 0x100) / 4) with
      | some r => 2 ^ 31 + at_ (r.weight % 256) 16 + r.id
      | none => 0)
  else if o = 0x404 then some (d.gthStatus c)
  else if o = 0x430 then some (d.replRows c)
  else if 0x4C0 ≤ o ∧ o < 0x4E0 then d.tutorView (1152 + c) (o - 0x4C0)
  else if o = 0x800 then
    let busy := (d.running (1224 + c)).isSome
    let open_ := (d.fb.tags.filter (fun e => e.1 / 64 == c)).foldl (fun a e => a + e.2.opened.length) 0
    some (b2n busy + 2 * b2n (busy && (tfind d.fb.waits c).isSome) + at_ (min 255 open_) 8)
  else if o = 0x810 then some (d.fb.cols.filter (fun e => e.2.unit == c)).length
  else none

/-- Quadrant-window registers that show state (R103, R345). -/
def Dev.qdrView (d : Dev) (q o : Nat) : Option Nat :=
  let x := d.quad q
  if o = 0x14 then some x.occ
  else if o = 0x18 then some x.laf.length
  else if o = 0x1C then some x.robOcc
  else if 0x20 ≤ o ∧ o < 0x40 then some (x.depth ((o - 0x20) / 4))
  else if 0xC0 ≤ o ∧ o < 0xE0 then d.tutorView (1224 + q) (o - 0xC0)
  else if o = 0x804 then some (d.cmpStatus q)
  else if o = 0x80C then some (d.cmpDepth q)
  else none

/-- Port-window registers that show state (R393). -/
def Dev.portView (d : Dev) (p o : Nat) : Option Nat :=
  if 0xC0 ≤ o ∧ o < 0xE0 then d.tutorView (1232 + p) (o - 0xC0)
  else if 4 ≤ p then none
  else
    let x := d.port p
    if o = 4 then some (d.rn (prtReg p 4) + at_ x.width 11 + at_ x.state 8)
    else if o = 8 then some (match x.partner with | some (s, k, _) => 2 ^ 31 + at_ s 16 + at_ k 12 | none => 0)
    else none

/-- A word of an attendance bank, and of the field book's visible bank (R47, R100). -/
def Dev.fldWord (d : Dev) (o : Nat) : Nat :=
  fld ((tfind d.fb.visible (o / 96)).map FbRec.bytes |>.getD (zeros 96)) (o % 96) 4

/-- Global registers that show state; none for those that are held as written. -/
def Dev.globalView (d : Dev) (a : Nat) : Option Nat :=
  if a = GLB + 0x100 then some d.pinsIn
  else if a = PHT + 4 then some (d.rn a + at_ d.activeNow 4)
  else if a = PHT + 8 then some (d.rn a + phtModeCode d.pht.mode)
  else if a = PHT + 0x18 then some (tc 48 d.pht.p)
  else if a = PHT + 0x1C then some (tc 48 d.pht.p / 2 ^ 32)
  else if a = PHT + 0x28 then some d.step
  else if a = PHT + 0x2C then some (d.step / 2 ^ 32)
  else if a = PHT + 0x38 then some d.phase
  else if a = PLT + 4 then some (d.rn a + d.pltState + at_ (b2n !d.plt.opening.isEmpty) 8)
  else if PLT + 0x400 ≤ a ∧ a < PLT + 0x400 + 326 * 4 then some (d.seatBytes ((a - (PLT + 0x400)) / 4) SeatSt.epoch)
  else if PLT + 0x1000 ≤ a ∧ a < PLT + 0x1000 + 326 * 4 then some (d.seatBytes ((a - (PLT + 0x1000)) / 4) SeatSt.role)
  else if a = FLT + 4 then some (d.flt.stage + 4 * b2n d.flt.timerRun)
  else if a = FLT + 0x18 then some d.graceLeft
  else if a = MEM then some ((List.range 4).foldl (fun n k => if d.setValid k then n + d.setSize k else n) 0)
  else if a = MEM + 4 then some ((List.range 4).foldl (fun n k => if d.setValid k then n + d.setSize k else n) 0 / 2 ^ 32)
  else if MEM + 0x30000 ≤ a ∧ a < MEM + 0x31000 then d.ichView ((a - (MEM + 0x30000)) / 0x100) (a % 0x100)
  else if a = LNK + 4 then some (d.rn a + 2 * b2n d.fab.colClosed + b2n d.fab.rowClosed)
  else if a = ethReg 0 4 then some (d.ethStatus 0)
  else if a = ethReg 1 4 then some (d.ethStatus 1)
  else if ETH + 0x8000 ≤ a ∧ a < ETH + 0x18000 then
    let s := (a - (ETH + 0x8000)) / 0x40
    if a % 0x40 = 0x30 then some (b2n ((d.str s).valid && (d.str s).idle)) else none
  else if ETH + 0x20000 ≤ a ∧ a < ETH + 0x21000 then d.grpView ((a - (ETH + 0x20000)) / 0x100) (a % 0x100)
  else if a = ATT then some (2 * b2n (d.loading d.att.shadowLoad || d.loading d.att.snapLoad) + b2n d.att.snapValid)
  else if a = ATT + 8 then some d.att.shadowStep.toNat
  else if a = ATT + 0xC then some (d.att.shadowStep.toNat / 2 ^ 32)
  else if a = ATT + 0x10 then some d.att.snapStep.toNat
  else if a = ATT + 0x14 then some (d.att.snapStep.toNat / 2 ^ 32)
  else if a = ATT + 0x18 then some d.att.snapPhase
  else if ATT + 0x10000 ≤ a ∧ a < ATT + 0x20000 then some (d.bankWord d.att.shadowLoad d.att.shadowOld d.att.shadow (a - (ATT + 0x10000)))
  else if ATT + 0x20000 ≤ a ∧ a < ATT + 0x30000 then some (d.bankWord d.att.snapLoad d.att.snapOld d.att.snap (a - (ATT + 0x20000)))
  else if RNG + 0x100000 ≤ a ∧ a < FLD then
    let n := (a - (RNG + 0x100000)) / 0x40
    if a % 0x40 = 4 then some (d.rn a / 2 * 2 + b2n (d.ringIdle n)) else none
  else if a = FLD then some (b2n d.fb.stale)
  else if a = FLD + 8 then some d.fb.shadowTag
  else if a = FLD + 0xC then some (d.fb.shadowTag / 2 ^ 32)
  else if FLD + 0x100000 ≤ a ∧ a < FLD + 0x1C0000 then some (d.fldWord (a - (FLD + 0x100000)))
  else none

/-- A register as it reads, without side effects: write-only bits read zero. -/
def Dev.regView (d : Dev) (a : Nat) : Nat :=
  let o := a % 0x1000
  let v : Option Nat :=
    if a < TILW then d.globalView a
    else if a < CLUW then d.tileView (denseTile ((a - TILW) / 0x1000)) o
    else if a < QDRW then d.cluView (denseCluster ((a - CLUW) / 0x1000)) o
    else if a < PRTW then d.qdrView ((a - QDRW) / 0x1000) o
    else d.portView ((a - PRTW) / 0x1000) o
  (v.getD (d.rn a)) % 2 ^ 32

/-- Registers whose names end in _LO (R122); the _HI partner stands 4 bytes on. -/
def isLo (a : Nat) : Bool :=
  if a < GLB then false
  else if a < PHT then [0x10, 0x18, 0x20].contains (a - GLB)
  else if a < TTB then [0x18, 0x20, 0x28, 0x30, 0x44].contains (a - PHT)
  else if a < PLT then 0x1000 ≤ a - TTB && a - TTB < 0x3000 && a % 32 == 12
  else if a < FLT then [8, 0x10, 0x18, 0x28, 0x30].contains (a - PLT)
  else if a < SEC then a == FLT + 0x28
  else if a < CTK then a == SEC + 0x10
  else if a < MEM then a == CTK + 0x44
  else if a < LNK then
    let o := a - MEM
    o == 0 || o == 0x18 || (0x10000 ≤ o && o < 0x20000 && (o % 0x1000 == 0x10 || o % 0x1000 == 0x1C))
      || (0x20000 ≤ o && o < 0x20080 && (o % 0x20 == 4 || o % 0x20 == 0xC))
      || (0x30000 ≤ o && o < 0x31000 && [8, 0x14, 0x1C, 0x24].contains (o % 0x100))
  else if a < ETH then false
  else if a < ATT then
    let o := a - ETH
    o == 0x1008 || o == 0x2008 || (0x8000 ≤ o && o < 0x18000 && [8, 0x10, 0x18].contains (o % 0x40))
      || (0x20000 ≤ o && o < 0x21000 && [8, 0x10, 0x18, 0x20, 0x78].contains (o % 0x100))
      || (0x30000 ≤ o && o < 0x38000 && o % 0x40 == 0x1C)
  else if a < RNG then a == ATT + 8 || a == ATT + 0x10
  else if a < FLD then 0x100000 ≤ a - RNG && a % 0x40 == 8
  else if a < TILW then a == FLD + 8
  else if a < CLUW then a % 0x100 == 0xE4 || a % 0x100 == 0xEC
  else false

end Sys2Proof.Machine
end

