-- ==== Sys2Proof/Machine/Access.lean ====
section
/-! DEFINITION. Accesses of the host and the caretaker: the BARs, widths and alignment, the single-bit window, the SRAM
aperture, doorbell pages and access errors (R117, R120 to R125, R129, R130, R145, R461). -/
namespace Sys2Proof.Machine

/-! Access errors (R117, R461) -/

/-- An access error of a kind: 1 DECODE_ERR, 2 PARTIAL_WRITE, 3 BAR4_DENY, 4 APT_DENY. -/
def Dev.accessErr (d : Dev) (kind addr space : Nat) (care write : Bool) : Dev :=
  let d := if d.rf (GLB + 4) 3 0 = 0 then
      (d.wn2 (GLB + 0x20) (addr % 2 ^ 48)).wn (GLB + 0x28) (at_ space 20 + at_ (b2n care) 16 + at_ (b2n write) 8 + kind)
    else d
  let d := d.wbit (GLB + 4) (kind - 1) true
  match kind with
  | 1 => d.fault 6 0 0 (if space = 0 then addr else 0)
  | 3 => (d.bump (GLB + 0x2C)).fault 7 0 0 addr
  | 4 => d.bump (GLB + 0x30)
  | _ => d

/-! Where an address leads (R116, R119, R120, R130, R131) -/

/-- What an access reaches: a word of a register window, a bit of a global register, bytes of memory, a word of the MSI-X
table or of its pending-bit array, or nothing. Register addresses keep their two low bits. -/
inductive Target where
  | reg (a : Nat) | oneBit (r b : Nat) | mem (a : Nat) | msix (word : Nat) | pba (word : Nat) | nothing
  deriving DecidableEq, Repr

/-- The single-bit window over the global blocks (R129). -/
def BITW : Nat := 0x7F8000000000

/-- A device address (R116). -/
def Dev.target (d : Dev) (a : Nat) : Target :=
  if isReg a then .reg (canon a)
  else if BITW ≤ a ∧ a < BITW + 0x20000000 then .oneBit (GLB + (a - BITW) / 128 * 4) ((a - BITW) % 128 / 4)
  else if (SLATE ≤ a ∧ a < SLATE + 0x80000000) ∨ (BOARD ≤ a ∧ a < BOARD + 0x40000000) then .mem (canon a)
  else if (d.setOf a).isSome then .mem a else .nothing

/-- The device address that a BAR0 offset maps, if it maps one (R120, R130); the SRAM aperture apart. -/
def Dev.bar0 (d : Dev) (x : Nat) : Option Nat :=
  if x < 0x1000000 then some (GLB + x)
  else if x < 0x2000000 then some (BITW + d.rf (GLB + 8) 4 0 * 0x1000000 + (x - 0x1000000))
  else if x < 0x2800000 then some (TILW + (x - 0x2000000))
  else if x < 0x2880000 then some (CLUW + (x - 0x2800000))
  else if x < 0x2888000 then some (QDRW + (x - 0x2880000))
  else if x < 0x2890000 then some (PRTW + (x - 0x2888000))
  else none

/-- What a BAR0 offset or a caretaker's address reaches, with the address and space that an error records (R461). -/
def Dev.reach (d : Dev) (m : Master) (x : Nat) : Target × Nat × Nat :=
  match m with
  | .host =>
    match d.bar0 x with
    | some a => (d.target a, a, 0)
    | none =>
      if 0x2890000 ≤ x ∧ x < 0x2898000 then (.msix ((x - 0x2890000) / 4), x, 1)
      else if 0x2898000 ≤ x ∧ x < 0x2898100 then (.pba ((x - 0x2898000) / 4), x, 1)
      else (.nothing, x, 1)
  | _ => (d.target x, x, 0)

/-- A read ends as an Unsupported Request; the host's is recorded by Advanced Error Reporting (R117, R137). -/
def Dev.answerUr (d : Dev) (host : Bool) : Dev :=
  (if host && !d.host.aerUr then { d with host := { d.host with aerUr := true } } else d).emit .readUr

/-! The SRAM aperture (R125) -/

/-- Device address of an offset in the aperture. -/
def Dev.apertureAddr (d : Dev) (off : Nat) : Nat := d.rn2 (GLB + 0x18) % 2 ^ 48 / 2 ^ 24 * 2 ^ 24 + off

def isSram (a : Nat) : Bool := (SLATE ≤ a && a < SLATE + 0x80000000) || (BOARD ≤ a && a < BOARD + 0x40000000)

/-- A byte that the host may write through the aperture. -/
def Dev.sramVisible (d : Dev) (a : Nat) : Bool :=
  (d.allocsAt a 1).any (fun r => 1 ≤ r.kind && r.kind ≤ 3 && bit r.flags 0)

/-- Write bytes through the aperture: those the host may write are written; one refusal for the others. -/
def Dev.apertureWrite (d : Dev) (off : Nat) (data : Bytes) : Dev :=
  let a := d.apertureAddr off
  let data := data.take (2 ^ 24 - off)
  if !isSram a then d.accessErr 1 a 0 false true
  else
    let r := data.foldl (fun (x : Dev × Nat × Bool) b =>
      let c := canon (a + x.2.1)
      if d.sramVisible c then (x.1.mwrite c [b], x.2.1 + 1, x.2.2) else (x.1, x.2.1 + 1, true)) (d, 0, false)
    if r.2.2 then r.1.accessErr 4 a 0 false true else r.1

/-- Read bytes through the aperture. -/
def Dev.apertureRead (d : Dev) (off n : Nat) : Dev :=
  let a := d.apertureAddr off
  if !isSram a then (d.accessErr 1 a 0 false false).answerUr true
  else d.emit (.readData ((List.range n).map (fun i => d.mem.read (canon (a + i)))))

/-! BAR4 (R124) -/

/-- Size of BAR4, which the host sets through the Resizable BAR capability (R124, R137). -/
def Dev.bar4Size (d : Dev) : Nat := 2 ^ d.host.bar4Log

/-- DRAM address of a BAR4 offset: the size of the BAR is the alignment of GLB_BAR4_BASE. -/
def Dev.bar4Addr (d : Dev) (off : Nat) : Nat := d.rn2 (GLB + 0x10) % 2 ^ 48 / d.bar4Size * d.bar4Size + off

/-- A DRAM byte that the host may reach. -/
def Dev.dramVisible (d : Dev) (a : Nat) : Bool := (d.allocsAt a 1).any (fun r => r.kind == 0 && bit r.flags 0)

/-- An access of n bytes through BAR4. -/
def Dev.bar4 (d : Dev) (write : Bool) (off n : Nat) (data : Bytes) : Dev :=
  let a := d.bar4Addr off
  let no (d : Dev) : Dev := if write then d else d.answerUr true
  if d.bar4Size < off + n then d
  else if (List.range n).any (fun i => (d.setOf (a + i)).isNone) then no (d.accessErr 1 a 0 false write)
  else if !(List.range n).all (fun i => d.dramVisible (a + i)) then no (d.accessErr 3 a 0 false write)
  else if write then d.mwrite a data
  else
    let (d', bad) := d.touch a n
    d'.emit (if bad then .readPoisoned else .readData (d.mread a n))

/-! Reading (R122) -/

/-- A register as it reads, without side effects. -/
def State.view (s : State) (a : Nat) : Nat :=
  if CTK ≤ a ∧ a < CTK + 0x10000 then s.ctkRead (a - CTK)
  else if SEC ≤ a ∧ a < CTK then s.secRead (a - SEC)
  else s.dev.regView a

def State.held (s : State) (m : Master) : Option (Nat × Word) :=
  match m with | .host => s.dev.host.holdHost | .caretaker => s.dev.host.holdCare | .tutor => none
def State.setHeld (s : State) (m : Master) (h : Option (Nat × Word)) : State :=
  s.setDev (fun d => match m with
    | .host => { d with host := { d.host with holdHost := h } }
    | .caretaker => { d with host := { d.host with holdCare := h } }
    | .tutor => d)

/-- A 4-byte read of a register by the host or the caretaker: a _LO register copies its partner, the partner's next read
gives the copy, and a read of PHT_AUX_CAP_TB takes CAP_NEW (R122, R452). -/
def State.readWord (s : State) (m : Master) (a : Nat) : Word × State :=
  let v : Word := BitVec.ofNat 32 (s.view a)
  if isLo a then (v, s.setHeld m (some (a + 4, BitVec.ofNat 32 (s.view (a + 4)))))
  else match s.held m with
    | some (r, h) => if r = a then (h, s.setHeld m none)
      else (v, if a = PHT + 0x50 then s.setDev Dev.readCapTb else s)
    | none => (v, if a = PHT + 0x50 then s.setDev Dev.readCapTb else s)

/-! Writing (R121, R126 to R130) -/

/-- A 4-byte write of a register at its canonical address. -/
def State.regPut (s : State) (a : Nat) (v : Word) : State :=
  if CTK ≤ a ∧ a < CTK + 0x10000 then s.ctkWrite (a - CTK) v else (s.setDev (fun d => d.regWrite a v)).settle

/-- Bits of a CTK register by class: live, write-1-to-clear, write-only (R434). -/
def ctkBits (o : Nat) : Nat × Nat × Nat :=
  if o = 4 then (0, 0xE, 0) else if o = 0x10 then (0xF, 0, 0) else if o = 0x14 ∨ o = 0x18 then (0xFFFF, 0, 0)
  else if o = 0x20 then (0, 0, m32) else if o = 0x40 then (0xFF, 0, 0)
  else if o = 0x44 ∨ o = 0x48 ∨ o = 0x4C ∨ o = 0x50 then (m32, 0, 0)
  else if o = 0x5C then (0, 0, 1) else (0, 0, 0)

/-- A write of one bit of a CTK register. -/
def State.ctkBitPut (s : State) (o b : Nat) (one : Bool) : State :=
  let (l, c, w) := ctkBits o
  let x : Word := if one then 1#32 <<< b else 0#32
  if bit c b ∨ bit w b then s.ctkWrite o x
  else if bit l b then s.ctkWrite o ((BitVec.ofNat 32 (s.ctkRead o) &&& ~~~(1#32 <<< b)) ||| x)
  else s

/-- A write of one bit of a global register (R129). -/
def State.bitPut (s : State) (r b : Nat) (one : Bool) : State :=
  if CTK ≤ r ∧ r < CTK + 0x10000 then s.ctkBitPut (r - CTK) b one
  else
    let sp := specOf r
    let x : Word := if one then 1#32 <<< b else 0#32
    if bit sp.o b then (s.setDev (fun d => d.putReg r (BitVec.ofNat 32 sp.o) x false)).settle
    else if bit sp.h b ∨ bit sp.l b ∨ bit sp.c b then (s.setDev (fun d => d.putReg r (1#32 <<< b) x false)).settle
    else s

/-! Configuration space (R124, R137) -/

/-- Where a host's access of the configuration space stands among its addresses: the model's own way to name one (log
entry 92). -/
def CFG : Nat := 0x800000000000

/-- Configuration words of the function, by offset: identity, class code, Advanced Error Reporting and Resizable BAR. The header
and the two capabilities have the layout of the PCI Express specification, at the offsets of log entry 92; none for a word that
the spec gives nothing of. -/
def Dev.cfgWord (d : Dev) (o : Nat) : Option Nat :=
  if o = 0 then some 0x77411F9A
  else if o = 8 then some 0x120000A1
  else if o = 0x2C then some 0x00011F9A
  else if o = 0x100 then some 0x15020001
  else if o = 0x104 then some (if d.host.aerUr then 2 ^ 20 else 0)
  else if o = 0x150 then some 0x00010015
  else if o = 0x154 then some 0x07FFC000
  else if o = 0x158 then some ((d.host.bar4Log - 20) * 256 + 0x24)
  else none

/-- A write of a configuration word: the size of BAR4, 1 GiB to 4 TiB, and the error status, whose bits are cleared by 1. -/
def Dev.cfgWrite (d : Dev) (o v : Nat) : Dev :=
  if o = 0x104 ∧ bit v 20 then { d with host := { d.host with aerUr := false } }
  else if o = 0x158 ∧ 10 ≤ bits v 13 8 ∧ bits v 13 8 ≤ 22 then { d with host := { d.host with bar4Log := 20 + bits v 13 8 } }
  else d

/-- A read of configuration bytes; a word that the spec gives nothing of is a free value. -/
def Dev.cfgRead (d : Dev) (o n : Nat) : Dev :=
  let w (k : Nat) : Nat := (d.cfgWord k).getD (Config.freeNat d.free)
  ({ d with free := d.free + 1 }).emit (.readData ((List.range n).map (fun i => (leB 4 (w ((o + i) / 4 * 4))).getD ((o + i) % 4) 0)))

/-- Which masters reach the module now. -/
def State.reaches (s : State) (m : Master) : Bool := match m with | .host => s.hostUp | _ => s.running

/-- A 4-byte write of a register by a master, for the rows that name one register; a tutor reaches only the windows of
units (R105). -/
def State.write (s : State) (m : Master) (a : Nat) (v : Word) : State :=
  if s.reaches m && (m != .tutor || isMasked a) then s.regPut a v else s

def State.err (s : State) (m : Master) (kind addr space : Nat) (write : Bool) : State :=
  s.setDev (fun d => d.accessErr kind addr space (m == .caretaker) write)

/-- A 4-byte aligned write at a host's BAR0 offset or the caretaker's device address. -/
def State.write4 (s : State) (m : Master) (x : Nat) (v : Word) : State :=
  if !s.reaches m then s
  else match s.dev.reach m x with
    | (.reg a, _, _) => s.regPut a v
    | (.oneBit r b, _, _) => s.bitPut r b (v.getLsbD 0)
    | (.mem a, _, _) => s.setDev (fun d => d.mwrite a (leB 4 v.toNat))
    | (.msix w, _, _) => s.setDev (fun d => d.msixWrite w v)
    | (.pba _, _, _) => s
    | (.nothing, a, sp) => s.err m 1 a sp true

/-- The canonical address of each byte of an access that starts in memory (R131): none when a byte is outside the populated
capacity or outside every range, which makes the whole access a decode error (R117). -/
def Dev.memBytes (d : Dev) (x n : Nat) : Option (List Nat) :=
  (List.range n).mapM (fun i => match d.target (x + i) with | .mem a => some a | _ => none)

/-- Bytes written one by one at their canonical addresses. -/
def Dev.writeBytes (d : Dev) (l : List Nat) (data : Bytes) : Dev :=
  (l.zip data).foldl (fun d e => d.mwrite e.1 [e.2]) d

/-- Bytes read one by one, with what their lines of memory answer (R355, R356). -/
def Dev.readBytes (d : Dev) (l : List Nat) : Dev :=
  let r := d.touchAll (dedup (l.map (fun a => (a / 64 * 64, 64))))
  r.1.emit (if r.2 then .readPoisoned else .readData (l.map (fun a => d.mem.read a)))

/-- A write of any width (R121): what reaches nothing is a decode error; narrow and misaligned writes are discarded;
8 bytes are two writes, the low one first. The SRAM aperture and memory take any width. -/
def State.access (s : State) (m : Master) (x width : Nat) (v : DWord) : State :=
  if !s.reaches m then s
  else if m = .host ∧ CFG ≤ x then (if width = 4 ∧ x % 4 = 0 then s.setDev (fun d => d.cfgWrite (x - CFG) (v.toNat % 2 ^ 32)) else s)
  else if m = .host ∧ 0x3000000 ≤ x ∧ x < 0x4000000 then
    s.setDev (fun d => d.apertureWrite (x - 0x3000000) (leB (min width 8) v.toNat))
  else if m = .tutor then (if width = 4 ∧ x % 4 = 0 then s.write .tutor (canon x) (v.setWidth 32) else s)
  else match s.dev.reach m x with
    | (.nothing, a, sp) => s.err m 1 a sp true
    | (.mem _, a, sp) => (match s.dev.memBytes x (min width 8) with
        | some l => s.setDev (fun d => d.writeBytes l (leB (min width 8) v.toNat))
        | none => s.err m 1 a sp true)
    | (_, a, sp) =>
      if width = 4 ∧ x % 4 = 0 then s.write4 m x (v.setWidth 32)
      else if width = 8 ∧ x % 8 = 0 then (s.write4 m x (v.setWidth 32)).write4 m (x + 4) (v.extractLsb' 32 32)
      else s.err m 2 a sp true

/-- The single-bit window alone (R129): a write that lands elsewhere is no such write. -/
def State.bitAccess (s : State) (m : Master) (x width : Nat) (v : Word) : State :=
  match s.dev.reach m x with
  | (.oneBit _ _, _, _) => if m = .tutor then s else s.access m x width (v.setWidth 64)
  | _ => s

/-- Hand bytes to the reader. -/
def State.answer (s : State) (b : Bytes) : State := s.setDev (fun d => d.emit (.readData b))

/-- The word that a 4-byte aligned read gives, with the read's side effects. -/
def State.readTarget (s : State) (m : Master) : Target → Word × State
  | .reg r => s.readWord m r
  | .oneBit r b => (BitVec.ofNat 32 (bits (s.view r) b b), s)
  | .msix w => (s.dev.msixRead w, s)
  | .pba w => (s.dev.pbaRead w, s)
  | _ => (0, s)

/-- A read of any width by the host through BAR0 or by the caretaker (R121, R122, R125, R129): what reaches nothing is a
decode error; a narrow read inside a word gives its bytes; 8 aligned bytes are two registers; a misaligned read gives zeros.
The SRAM aperture and memory take any width. -/
def State.readAt (s : State) (m : Master) (x width : Nat) : State :=
  if !s.reaches m ∨ m = .tutor then s
  else if m = .host ∧ CFG ≤ x then s.setDev (fun d => d.cfgRead (x - CFG) width)
  else if m = .host ∧ 0x3000000 ≤ x ∧ x < 0x4000000 then s.setDev (fun d => d.apertureRead (x - 0x3000000) width)
  else match s.dev.reach m x with
    | (.nothing, a, sp) => (s.err m 1 a sp false).setDev (fun d => d.answerUr (m == .host))
    | (.mem _, a, sp) => (match s.dev.memBytes x width with
        | some l => s.setDev (fun d => d.readBytes l)
        | none => (s.err m 1 a sp false).setDev (fun d => d.answerUr (m == .host)))
    | (_, a, sp) =>
      if x % 4 + width ≤ 4 then
        let r := s.readTarget m (s.dev.reach m (x - x % 4)).1
        r.2.answer (slice (leB 4 r.1.toNat) (x % 4) width)
      else if width = 8 ∧ x % 8 = 0 then
        let r := s.readTarget m (s.dev.reach m x).1
        let r' := r.2.readTarget m (r.2.dev.reach m (x + 4)).1
        r'.2.answer (leB 4 r.1.toNat ++ leB 4 r'.1.toNat)
      else (s.err m 2 a sp false).answer (zeros width)

/-- A read of one register by its canonical address, for the row that names it. -/
def State.readReg (s : State) (m : Master) (a : Nat) : State :=
  if !s.reaches m ∨ m = .tutor then s
  else
    let r := s.readWord m a
    r.2.setDev (fun d => d.emit (.readData (leB 4 r.1.toNat)))

/-! BAR2 (R123, R145) -/

/-- A write through BAR2. -/
def Dev.bar2 (d : Dev) (x width : Nat) (v : DWord) : Dev :=
  if 4 ≤ x % 4096 then d
  else if x % 4096 = 0 ∧ (width = 4 ∨ width = 8) then d.doorbell (x / 4096) (v.toNat % 2 ^ 32)
  else d.accessErr 2 x 2 false true

/-- The word at a BAR2 offset: the index that R145 gives at the doorbell word; at the other words of a page the spec states
no value, and the word is a free value. -/
def Dev.bar2Word (d : Dev) (x : Nat) : Nat :=
  if x % 4096 = 0 then (if d.ringKind (x / 4096) = 0 then d.ringHead (x / 4096) else d.ringTail (x / 4096))
  else Config.freeNat d.free

/-- A read through BAR2 by the host. -/
def State.readBar2 (s : State) (x width : Nat) : State :=
  if !s.reaches .host then s
  else if x % 4 + width ≤ 4 then
    (s.setDev (fun d => { d with free := d.free + 1 })).answer (slice (leB 4 (s.dev.bar2Word (x - x % 4))) (x % 4) width)
  else if width = 8 ∧ x % 8 = 0 then
    (s.setDev (fun d => { d with free := d.free + 1 })).answer
      (leB 4 (s.dev.bar2Word x) ++ leB 4 (s.dev.bar2Word (x + 4)))
  else (s.err .host 2 x 2 false).answer (zeros width)

end Sys2Proof.Machine
end

