-- ==== Sys2Proof/Machine/BellCmds.lean ====
section
/-! DEFINITION. The commands of bells, phase tracker, pins and timetable (R22 to R34, R122, R449 to R459). One definition per row
of the table; what an event does not apply to leaves the state as it is. -/
namespace Sys2Proof.Machine

/-- STEP_IN_EDGE (R24). -/
def execStepInEdge (falling : Bool) (s : State) : Host.Outcome State Fault Refusal :=
  .next (s.onDev (fun d => d.stepInEdge falling))
/-- AUX_IN_EDGE (R24, R450). -/
def execAuxInEdge (falling : Bool) (s : State) : Host.Outcome State Fault Refusal :=
  .next (s.onDev (fun d => d.auxInEdge falling))
/-- PHT_BELL_DB (R24): any write is a bell. -/
def execPhtBellDb (m : Master) (v : Word) (s : State) : Host.Outcome State Fault Refusal := .next (s.write m (PHT + 0x40) v)
/-- BELL_FLIT (R385). -/
def execBellFlit (port : Fin 4) (origin : BitVec 11) (count : Tag) (s : State) : Host.Outcome State Fault Refusal :=
  .next (s.onDev (fun d => d.bellFlit port.val origin.toNat count))
/-- LOCK_WINDOW_EXPIRY (R27). -/
def execLockWindowExpiry (s : State) : Host.Outcome State Fault Refusal := .next (s.onDev (fun d => d.lockExpire))
/-- HOLD_LIMIT_EXPIRY (R30). -/
def execHoldLimitExpiry (s : State) : Host.Outcome State Fault Refusal := .next (s.onDev (fun d => d.holdExpire))
/-- PHT_ENABLE (R23): a write of PHT_CTL that sets ENABLE. -/
def execPhtEnable (m : Master) (v : Word) (s : State) : Host.Outcome State Fault Refusal :=
  .next (if v.getLsbD 31 then s.write m PHT v else s)
/-- PHT_DISABLE (R23, R71): a write of PHT_CTL with ENABLE 0. -/
def execPhtDisable (m : Master) (v : Word) (s : State) : Host.Outcome State Fault Refusal :=
  .next (if v.getLsbD 31 then s else s.write m PHT v)
/-- GPIO_EDGE (R450, R452). -/
def execGpioEdge (pin : Fin 4) (falling : Bool) (s : State) : Host.Outcome State Fault Refusal :=
  .next (s.onDev (fun d => d.gpioEdge (3 + pin.val) falling))
/-- AUX_CAP_TB_READ (R452). -/
def execAuxCapTbRead (m : Master) (s : State) : Host.Outcome State Fault Refusal := .next (s.readReg m (PHT + 0x50))
/-- LO_READ (R122): a read by the host or the caretaker; a _LO register copies its partner. -/
def execLoRead (m : Master) (bar2 : Bool) (addr : BitVec 48) (width : BitVec 13) (s : State) : Host.Outcome State Fault Refusal :=
  .next (if bar2 then s.readBar2 addr.toNat width.toNat else s.readAt m addr.toNat width.toNat)
/-- TTB_ENTRY_ARM (R31, R32): a write of word B with VALID 1. -/
def execTtbEntryArm (m : Master) (n : BitVec 8) (v : Word) (s : State) : Host.Outcome State Fault Refusal :=
  .next (if v.getLsbD 31 then s.write m (ttbEnt n.toNat 4) v else s)
/-- TTB_ENTRY_DISARM (R32): a write of word B with VALID 0. -/
def execTtbEntryDisarm (m : Master) (n : BitVec 8) (v : Word) (s : State) : Host.Outcome State Fault Refusal :=
  .next (if v.getLsbD 31 then s else s.write m (ttbEnt n.toNat 4) v)
/-- TTB_ENABLE (R459): a write of TTB_CTL. -/
def execTtbEnable (m : Master) (v : Word) (s : State) : Host.Outcome State Fault Refusal := .next (s.write m TTB v)
/-- TTB_ENTRY_FIRE (R33). -/
def execTtbEntryFire (n : BitVec 8) (s : State) : Host.Outcome State Fault Refusal :=
  .next (s.onDev (fun d => d.ttEntryFire n.toNat))
/-- PIN_ROLE_GRANT (R451). -/
def execPinRoleGrant (s : State) : Host.Outcome State Fault Refusal := .next (s.onDev (fun d => d.grantRoles))
/-- GPIO_PULSE_END (R453). -/
def execGpioPulseEnd (pin : Fin 4) (s : State) : Host.Outcome State Fault Refusal :=
  .next (s.onDev (fun d => d.pulseEnd (3 + pin.val)))
/-- STEP_OUT_PULSE_END (R449). -/
def execStepOutPulseEnd (s : State) : Host.Outcome State Fault Refusal := .next (s.onDev (fun d => d.stepOutEnd))

end Sys2Proof.Machine
end

