-- ==== Sys2Proof/Machine/CareCmds.lean ====
section
/-! DEFINITION. The commands of the caretaker: power, resets, boot, mailboxes, clocks, telemetry (R406, R413 to R435). One definition per row
of the table; what an event does not apply to leaves the state as it is. -/
namespace Sys2Proof.Machine

/-- POWER_INPUT_RISE (R413). -/
def execPowerInputRise (mV : Nat) (s : State) : Host.Outcome State Fault Refusal := .next (s.powerRise mV)
/-- POWER_INPUT_FALL (R413). -/
def execPowerInputFall (mV : Nat) (s : State) : Host.Outcome State Fault Refusal := .next (s.powerFall mV)
/-- POWER_GOOD (R413). -/
def execPowerGood (s : State) : Host.Outcome State Fault Refusal := .next (s.powerGoodIn)
/-- POWER_GOOD_TIMEOUT (R413). -/
def execPowerGoodTimeout (s : State) : Host.Outcome State Fault Refusal := .next (s.powerTimeout)
/-- POWER_STAGE_RETRY (R413). -/
def execPowerStageRetry (s : State) : Host.Outcome State Fault Refusal := .next (s.powerRetry)
/-- MOD_RESET_PIN (R415). -/
def execModResetPin (low : Bool) (s : State) : Host.Outcome State Fault Refusal := .next (s.resetPin low)
/-- CTK_RESET (R414). -/
def execCtkReset (m : Master) (v : Word) (s : State) : Host.Outcome State Fault Refusal := .next (s.write m (CTK + 0x20) v)
/-- BOOT_STAGE_END (R417). -/
def execBootStageEnd (f : BootFindings) (s : State) : Host.Outcome State Fault Refusal := .next (s.bootEnd f)
/-- BOOT_STAGE_FAIL (R417). -/
def execBootStageFail (overrun : Bool) (s : State) : Host.Outcome State Fault Refusal := .next (s.bootFail overrun)
/-- GET_CERT (R426). -/
def execGetCert (mb : Mbox) (len : Nat) (writable : Bool) (s : State) : Host.Outcome State Fault Refusal :=
  .next (s.getCert mb len writable)
/-- ATTEST (R427). -/
def execAttest (mb : Mbox) (data : Option Bytes) (s : State) : Host.Outcome State Fault Refusal := .next (s.attest mb data)
/-- FW_UPDATE (R425). -/
def execFwUpdate (data : Option Bytes) (s : State) : Host.Outcome State Fault Refusal := .next (s.fwUpdate data)
/-- FW_COMMIT_SVN (R425). -/
def execFwCommitSvn (s : State) : Host.Outcome State Fault Refusal := .next (s.fwCommit)
/-- ENROLL_KEY (R423). -/
def execEnrollKey (data : Option Bytes) (s : State) : Host.Outcome State Fault Refusal := .next (s.enroll data)
/-- REVOKE_KEY (R423). -/
def execRevokeKey (data : Option Bytes) (s : State) : Host.Outcome State Fault Refusal := .next (s.revoke data)
/-- SET_CONFIG (R428). -/
def execSetConfig (mb : Mbox) (data : Option Bytes) (s : State) : Host.Outcome State Fault Refusal := .next (s.setConfig mb data)
/-- MODULE_RESET (R428). -/
def execModuleReset (mb : Mbox) (s : State) : Host.Outcome State Fault Refusal := .next (s.mbReset mb)
/-- THERMAL_EVAL (R432). -/
def execThermalEval (die0 die1 : Int) (s : State) : Host.Outcome State Fault Refusal := .next (s.thermal die0 die1)
/-- POWER_CAP_EVAL (R432). -/
def execPowerCapEval (meanPower : Nat) (s : State) : Host.Outcome State Fault Refusal := .next (s.powerCap meanPower)
/-- TELEMETRY_REFRESH (R429). -/
def execTelemetryRefresh (t : Sensors) (s : State) : Host.Outcome State Fault Refusal := .next (s.telemetry t)
/-- OSFP_POLL (R431). -/
def execOsfpPoll (p : Fin 2) (medium : Nat) (healthy : Bool) (s : State) : Host.Outcome State Fault Refusal :=
  .next (s.osfp p.val medium healthy)
/-- ALIVE_TOGGLE (R406). -/
def execAliveToggle (s : State) : Host.Outcome State Fault Refusal := .next (s.aliveToggle)

end Sys2Proof.Machine
end

