-- ==== Sys2Proof/Machine/TutorMem.lean ====
section
/-! DEFINITION. Loads and stores of drills: a tutor's local address space (R105, R110, R114). -/
namespace Sys2Proof.Machine

/-- What a local address reaches. -/
inductive Local where
  | scratch (a : Nat)
  /-- A register of the tutor's unit. -/
  | reg (a : Nat)
  /-- Slate or board, by device address. -/
  | sram (a : Nat)
  deriving DecidableEq, Repr

/-- The window of a tutor's unit. -/
def tutorWindow (t : Nat) : Nat := tutorRegs t / 0x1000 * 0x1000

/-- The seat whose records a tutor's accesses are checked against may reach n bytes at an address; stores keep off records
that are read-only to seats. -/
def Dev.tutorMay (d : Dev) (t a n : Nat) (store : Bool) : Bool :=
  (d.allocsAt a n).any (fun r => (r.owner == seatRef t || bit r.flags 3) && !(store && bit r.flags 1))

/-- Where a local address leads; none faults with ADDR (R105). -/
def Dev.localAt (d : Dev) (t a n : Nat) (store : Bool) : Option Local :=
  if a + n ≤ 0x2000 then some (.scratch a)
  else if 0x10000 ≤ a ∧ a + n ≤ 0x11000 then some (.reg (canon (tutorWindow t + (a - 0x10000))))
  else
    let m : Option Nat :=
      if t < 1152 ∧ 0x100000 ≤ a ∧ a + n ≤ 0x180000 then some (SLATE + tileId t * 0x100000 + (a - 0x100000))
      else if 1152 ≤ t ∧ t < 1224 ∧ 0x1000000 ≤ a ∧ a + n ≤ 0x1600000 then
        some (BOARD + clusterId (t - 1152) * 0x800000 + (a - 0x1000000))
      else none
    match m with
    | some x => if d.tutorMay t x n store then some (.sram x) else none
    | none => none

/-- n bytes at a place, least significant first. -/
def Dev.localRead (d : Dev) (t n : Nat) : Local → Nat
  | .scratch a => ofLe ((List.range n).map (fun i => tget 0 (d.tutor t).scratch (a + i)))
  | .reg a => d.regView (a / 4 * 4) / 256 ^ (a % 4) % 256 ^ n
  | .sram a => d.mnum a n

/-- Store n bytes at a place; a store narrower than a register is discarded. -/
def Dev.localWrite (d : Dev) (t n v : Nat) : Local → Dev
  | .scratch a =>
    let x := d.tutor t
    d.setTutor t { x with scratch := (leB n v).foldl (fun (s : Tbl Byte × Nat) b => (tput s.1 s.2 b, s.2 + 1)) (x.scratch, a) |>.1 }
  | .reg a => if n = 4 then d.regWrite a (BitVec.ofNat 32 v) else d
  | .sram a => d.mwrite a (leB n v)

/-- Address of a load or store. -/
def TutorSt.ea (x : TutorSt) (ra : Greg) (imm : BitVec 16) : Nat := (x.g ra.val + imm.signExtend 32).toNat

/-- LW and LBU: n bytes, zero-extended. -/
def Dev.loadOp (d : Dev) (op t n : Nat) (rd ra : Greg) (imm : BitVec 16) : Dev :=
  d.drill t maskAll (encF2 op rd ra imm) (fun d =>
    let a := (d.tutor t).ea ra imm
    if a % n ≠ 0 then d.tutorFault t 2
    else match d.localAt t a n false with
      | none => d.tutorFault t 3
      | some p => d.put t rd (fun _ => BitVec.ofNat 32 (d.localRead t n p)))

/-- SW and SB: the low n bytes of the register that the rd field names. -/
def Dev.storeOp (d : Dev) (op t n : Nat) (rd ra : Greg) (imm : BitVec 16) : Dev :=
  d.drill t maskAll (encF2 op rd ra imm) (fun d =>
    let x := d.tutor t
    let a := x.ea ra imm
    if a % n ≠ 0 then d.tutorFault t 2
    else match d.localAt t a n true with
      | none => d.tutorFault t 3
      | some p =>
        let d := d.localWrite t n (x.g rd.val).toNat p
        d.setTutor t ((d.tutor t).next x.pc.toNat))

end Sys2Proof.Machine
end

