-- ==== Sys2Proof/Machine/DrillCmds.lean ====
section
/-! DEFINITION. The drill instructions (R113 to R115), each executed by a tutor. One definition per row
of the table; what an event does not apply to leaves the state as it is. -/
namespace Sys2Proof.Machine

/-- Go on to the next instruction. -/
def Dev.goOn (d : Dev) (t : Nat) : Dev := d.setTutor t ((d.tutor t).next (d.tutor t).pc.toNat)

/-- MIX64 over a register pair. -/
def Dev.mixOp (d : Dev) (t : Nat) (rd ra : Greg) : Dev :=
  d.drill t maskAll (encF1 0x10 rd ra 0) (fun d =>
    let x := d.tutor t
    let v := Sys2Proof.Machine.mix64 (x.pair ra.val)
    d.setTutor t (((x.setG rd.val (v.setWidth 32)).setG (rd.val + 1) (v.extractLsb' 32 32)).next x.pc.toNat))

/-- REDUCE: the pair of ra times rb, shifted right by 64. -/
def Dev.reduceOp (d : Dev) (t : Nat) (rd ra rb : Greg) : Dev :=
  d.drill t maskAll (encF1 0x11 rd ra rb) (fun d =>
    d.put t rd (fun x => BitVec.ofNat 32 ((x.pair ra.val).toNat * (x.g rb.val).toNat / 2 ^ 64)))

/-- SIG: no tutor of that reference, no event. -/
def Dev.sigOp (d : Dev) (t : Nat) (ra : Greg) (imm : BitVec 4) : Dev :=
  let d' := match denseTutor ((d.tutor t).g ra.val).toNat with
    | some u => d.raise u (16 + imm.toNat)
    | none => d
  d'.goOn t

/-- SETTMR: 0 stops the timer. -/
def Dev.settmrOp (d : Dev) (t : Nat) (ra : Greg) : Dev :=
  let x := d.tutor t
  let n := (x.g ra.val).toNat
  d.setTutor t ({ x with timer := if n = 0 then none else some (d.now + n) }.next x.pc.toNat)

/-- RDSTEP: the value, and the register it goes to. -/
def Dev.rdstepOp (d : Dev) (t : Nat) (rd : Greg) (imm : BitVec 4) : Dev :=
  let r := d.rdstep t imm.toNat
  r.2.put t rd (fun _ => r.1)

/-- FENCE: a command's stores and sends have been accepted when it ends. -/
def Dev.fenceOp (d : Dev) (t : Nat) : Dev := d.goOn t

/-- HALT. -/
def Dev.haltOp (d : Dev) (t : Nat) : Dev := (d.goOn t).halt t

/-- ADD (R114). -/
def execAdd (t : TutorIx) (rd ra rb : Greg) (s : State) : Host.Outcome State Fault Refusal :=
  .next (s.onDev (fun d => d.alu 0x00 t.val rd ra rb (fun a b => a + b)))
/-- SUB (R114). -/
def execSub (t : TutorIx) (rd ra rb : Greg) (s : State) : Host.Outcome State Fault Refusal :=
  .next (s.onDev (fun d => d.alu 0x01 t.val rd ra rb (fun a b => a - b)))
/-- AND (R114). -/
def execAnd (t : TutorIx) (rd ra rb : Greg) (s : State) : Host.Outcome State Fault Refusal :=
  .next (s.onDev (fun d => d.alu 0x02 t.val rd ra rb (fun a b => a &&& b)))
/-- OR (R114). -/
def execOr (t : TutorIx) (rd ra rb : Greg) (s : State) : Host.Outcome State Fault Refusal :=
  .next (s.onDev (fun d => d.alu 0x03 t.val rd ra rb (fun a b => a ||| b)))
/-- XOR (R114). -/
def execXor (t : TutorIx) (rd ra rb : Greg) (s : State) : Host.Outcome State Fault Refusal :=
  .next (s.onDev (fun d => d.alu 0x04 t.val rd ra rb (fun a b => a ^^^ b)))
/-- SLL (R114). -/
def execSll (t : TutorIx) (rd ra rb : Greg) (s : State) : Host.Outcome State Fault Refusal :=
  .next (s.onDev (fun d => d.alu 0x05 t.val rd ra rb (fun a b => a <<< (b.toNat % 32))))
/-- SRL (R114). -/
def execSrl (t : TutorIx) (rd ra rb : Greg) (s : State) : Host.Outcome State Fault Refusal :=
  .next (s.onDev (fun d => d.alu 0x06 t.val rd ra rb (fun a b => a >>> (b.toNat % 32))))
/-- SRA (R114). -/
def execSra (t : TutorIx) (rd ra rb : Greg) (s : State) : Host.Outcome State Fault Refusal :=
  .next (s.onDev (fun d => d.alu 0x07 t.val rd ra rb (fun a b => a.sshiftRight (b.toNat % 32))))
/-- SLT (R114). -/
def execSlt (t : TutorIx) (rd ra rb : Greg) (s : State) : Host.Outcome State Fault Refusal :=
  .next (s.onDev (fun d => d.alu 0x08 t.val rd ra rb (fun a b => if a.slt b then 1 else 0)))
/-- SLTU (R114). -/
def execSltu (t : TutorIx) (rd ra rb : Greg) (s : State) : Host.Outcome State Fault Refusal :=
  .next (s.onDev (fun d => d.alu 0x09 t.val rd ra rb (fun a b => if a.ult b then 1 else 0)))
/-- MUL (R114). -/
def execMul (t : TutorIx) (rd ra rb : Greg) (s : State) : Host.Outcome State Fault Refusal :=
  .next (s.onDev (fun d => d.alu 0x0A t.val rd ra rb (fun a b => a * b)))
/-- MULH (R114). -/
def execMulh (t : TutorIx) (rd ra rb : Greg) (s : State) : Host.Outcome State Fault Refusal :=
  .next (s.onDev (fun d => d.alu 0x0B t.val rd ra rb (fun a b => BitVec.ofInt 32 (a.toInt * b.toInt / 2 ^ 32))))
/-- MULHU (R114). -/
def execMulhu (t : TutorIx) (rd ra rb : Greg) (s : State) : Host.Outcome State Fault Refusal :=
  .next (s.onDev (fun d => d.alu 0x0C t.val rd ra rb (fun a b => BitVec.ofNat 32 (a.toNat * b.toNat / 2 ^ 32))))
/-- CLZ (R114). -/
def execClz (t : TutorIx) (rd ra : Greg) (s : State) : Host.Outcome State Fault Refusal :=
  .next (s.onDev (fun d => d.alu 0x0D t.val rd ra 0 (fun a _ => clz32 a)))
/-- CRC32C (R114). -/
def execCrc32c (t : TutorIx) (rd ra rb : Greg) (s : State) : Host.Outcome State Fault Refusal :=
  .next (s.onDev (fun d => d.alu 0x0E t.val rd ra rb (fun a b => crcWord a b)))
/-- CRCB (R114). -/
def execCrcb (t : TutorIx) (rd ra rb : Greg) (s : State) : Host.Outcome State Fault Refusal :=
  .next (s.onDev (fun d => d.alu 0x0F t.val rd ra rb (fun a b => crcByte a (b.setWidth 8))))
/-- MIX64 (R114, R220). -/
def execMix64 (t : TutorIx) (rd ra : Greg) (s : State) : Host.Outcome State Fault Refusal :=
  .next (s.onDev (fun d => d.mixOp t.val rd ra))
/-- REDUCE (R114). -/
def execReduce (t : TutorIx) (rd ra rb : Greg) (s : State) : Host.Outcome State Fault Refusal :=
  .next (s.onDev (fun d => d.reduceOp t.val rd ra rb))
/-- ADDI (R114). -/
def execAddi (t : TutorIx) (rd ra : Greg) (imm : BitVec 16) (s : State) : Host.Outcome State Fault Refusal :=
  .next (s.onDev (fun d => d.alui 0x14 t.val rd ra imm (fun a => a + imm.signExtend 32)))
/-- ANDI (R114). -/
def execAndi (t : TutorIx) (rd ra : Greg) (imm : BitVec 16) (s : State) : Host.Outcome State Fault Refusal :=
  .next (s.onDev (fun d => d.alui 0x15 t.val rd ra imm (fun a => a &&& imm.setWidth 32)))
/-- ORI (R114). -/
def execOri (t : TutorIx) (rd ra : Greg) (imm : BitVec 16) (s : State) : Host.Outcome State Fault Refusal :=
  .next (s.onDev (fun d => d.alui 0x16 t.val rd ra imm (fun a => a ||| imm.setWidth 32)))
/-- SLLI (R114). -/
def execSlli (t : TutorIx) (rd ra : Greg) (imm : BitVec 16) (s : State) : Host.Outcome State Fault Refusal :=
  .next (s.onDev (fun d => d.alui 0x17 t.val rd ra imm (fun a => a <<< (imm.toNat % 32))))
/-- SRLI (R114). -/
def execSrli (t : TutorIx) (rd ra : Greg) (imm : BitVec 16) (s : State) : Host.Outcome State Fault Refusal :=
  .next (s.onDev (fun d => d.alui 0x18 t.val rd ra imm (fun a => a >>> (imm.toNat % 32))))
/-- SRAI (R114). -/
def execSrai (t : TutorIx) (rd ra : Greg) (imm : BitVec 16) (s : State) : Host.Outcome State Fault Refusal :=
  .next (s.onDev (fun d => d.alui 0x19 t.val rd ra imm (fun a => a.sshiftRight (imm.toNat % 32))))
/-- LUI (R114). -/
def execLui (t : TutorIx) (rd : Greg) (imm : BitVec 16) (s : State) : Host.Outcome State Fault Refusal :=
  .next (s.onDev (fun d => d.alui 0x1A t.val rd 0 imm (fun _ => imm.setWidth 32 <<< 16)))
/-- LW (R105, R114). -/
def execLw (t : TutorIx) (rd ra : Greg) (imm : BitVec 16) (s : State) : Host.Outcome State Fault Refusal :=
  .next (s.onDev (fun d => d.loadOp 0x1B t.val 4 rd ra imm))
/-- LBU (R105, R114). -/
def execLbu (t : TutorIx) (rd ra : Greg) (imm : BitVec 16) (s : State) : Host.Outcome State Fault Refusal :=
  .next (s.onDev (fun d => d.loadOp 0x1C t.val 1 rd ra imm))
/-- SW (R105, R114). -/
def execSw (t : TutorIx) (rd ra : Greg) (imm : BitVec 16) (s : State) : Host.Outcome State Fault Refusal :=
  .next (s.onDev (fun d => d.storeOp 0x1D t.val 4 rd ra imm))
/-- SB (R105, R114). -/
def execSb (t : TutorIx) (rd ra : Greg) (imm : BitVec 16) (s : State) : Host.Outcome State Fault Refusal :=
  .next (s.onDev (fun d => d.storeOp 0x1E t.val 1 rd ra imm))
/-- JALR (R114). -/
def execJalr (t : TutorIx) (rd ra : Greg) (imm : BitVec 16) (s : State) : Host.Outcome State Fault Refusal :=
  .next (s.onDev (fun d => d.jalr t.val rd ra imm))
/-- BEQ (R114). -/
def execBeq (t : TutorIx) (ra rb : Greg) (off : BitVec 16) (s : State) : Host.Outcome State Fault Refusal :=
  .next (s.onDev (fun d => d.branch 0x20 t.val ra rb off (fun a b => a == b)))
/-- BNE (R114). -/
def execBne (t : TutorIx) (ra rb : Greg) (off : BitVec 16) (s : State) : Host.Outcome State Fault Refusal :=
  .next (s.onDev (fun d => d.branch 0x21 t.val ra rb off (fun a b => a != b)))
/-- BLT (R114). -/
def execBlt (t : TutorIx) (ra rb : Greg) (off : BitVec 16) (s : State) : Host.Outcome State Fault Refusal :=
  .next (s.onDev (fun d => d.branch 0x22 t.val ra rb off (fun a b => a.slt b)))
/-- BGE (R114). -/
def execBge (t : TutorIx) (ra rb : Greg) (off : BitVec 16) (s : State) : Host.Outcome State Fault Refusal :=
  .next (s.onDev (fun d => d.branch 0x23 t.val ra rb off (fun a b => !a.slt b)))
/-- BLTU (R114). -/
def execBltu (t : TutorIx) (ra rb : Greg) (off : BitVec 16) (s : State) : Host.Outcome State Fault Refusal :=
  .next (s.onDev (fun d => d.branch 0x24 t.val ra rb off (fun a b => a.ult b)))
/-- BGEU (R114). -/
def execBgeu (t : TutorIx) (ra rb : Greg) (off : BitVec 16) (s : State) : Host.Outcome State Fault Refusal :=
  .next (s.onDev (fun d => d.branch 0x25 t.val ra rb off (fun a b => !a.ult b)))
/-- LOOP (R115). -/
def execLoop (t : TutorIx) (ra : Greg) (off : BitVec 16) (s : State) : Host.Outcome State Fault Refusal :=
  .next (s.onDev (fun d => d.loop t.val ra off))
/-- J (R114). -/
def execJ (t : TutorIx) (off : BitVec 26) (s : State) : Host.Outcome State Fault Refusal :=
  .next (s.onDev (fun d => d.jumpOp 0x28 t.val off false))
/-- CALL (R114). -/
def execCall (t : TutorIx) (off : BitVec 26) (s : State) : Host.Outcome State Fault Refusal :=
  .next (s.onDev (fun d => d.jumpOp 0x29 t.val off true))
/-- SEND (R107). -/
def execSend (t : TutorIx) (r rt : Greg) (queue : Byte) (s : State) : Host.Outcome State Fault Refusal :=
  .next (s.onDev (fun d => d.drill t.val maskSend (encF5 0x30 r rt queue 0) (fun d => d.sendOp t.val r.val rt.val queue.toNat)))
/-- SEND_TASK (R108): SEND to special queue 0x80. -/
def execSendTask (t : TutorIx) (r : Greg) (s : State) : Host.Outcome State Fault Refusal :=
  .next (s.onDev (fun d => d.drill t.val maskSend (encF5 0x30 r 0 0x80 0) (fun d => d.sendOp t.val r.val 0 0x80)))
/-- SEND_CANCEL (R94, R108): SEND to special queue 0x81. -/
def execSendCancel (t : TutorIx) (r : Greg) (s : State) : Host.Outcome State Fault Refusal :=
  .next (s.onDev (fun d => d.drill t.val maskSend (encF5 0x30 r 0 0x81 0) (fun d => d.sendOp t.val r.val 0 0x81)))
/-- SEND_RESUB (R99, R108): SEND to special queue 0x83. -/
def execSendResub (t : TutorIx) (r : Greg) (s : State) : Host.Outcome State Fault Refusal :=
  .next (s.onDev (fun d => d.drill t.val maskSend (encF5 0x30 r 0 0x83 0) (fun d => d.sendOp t.val r.val 0 0x83)))
/-- SEND_RINGPOST (R108, R155): SEND to special queue 0x84. -/
def execSendRingpost (t : TutorIx) (r : Greg) (s : State) : Host.Outcome State Fault Refusal :=
  .next (s.onDev (fun d => d.drill t.val maskSend (encF5 0x30 r 0 0x84 0) (fun d => d.sendOp t.val r.val 0 0x84)))
/-- SEND_GO (R108, R109): SEND to special queue 0x85. -/
def execSendGo (t : TutorIx) (r : Greg) (s : State) : Host.Outcome State Fault Refusal :=
  .next (s.onDev (fun d => d.drill t.val maskSend (encF5 0x30 r 0 0x85 0) (fun d => d.sendOp t.val r.val 0 0x85)))
/-- SENDNB (R107, R114). -/
def execSendnb (t : TutorIx) (r rt : Greg) (queue : Byte) (st : Greg) (s : State) : Host.Outcome State Fault Refusal :=
  .next (s.onDev (fun d => d.drill t.val maskAll (encF5 0x31 r rt queue st) (fun d => d.sendNbOp t.val r.val rt.val queue.toNat st.val)))
/-- RECV (R107, R114). -/
def execRecv (t : TutorIx) (r : Greg) (queue : Byte) (s : State) : Host.Outcome State Fault Refusal :=
  .next (s.onDev (fun d => d.drill t.val maskSend (encF5 0x32 r 0 queue 0) (fun d => d.recvOp t.val r.val queue.toNat)))
/-- RECV_LAF (R108): RECV from special queue 0x82. -/
def execRecvLaf (t : TutorIx) (r : Greg) (s : State) : Host.Outcome State Fault Refusal :=
  .next (s.onDev (fun d => d.drill t.val maskSend (encF5 0x32 r 0 0x82 0) (fun d => d.recvOp t.val r.val 0x82)))
/-- RECVNB (R107, R114). -/
def execRecvnb (t : TutorIx) (r : Greg) (queue : Byte) (st : Greg) (s : State) : Host.Outcome State Fault Refusal :=
  .next (s.onDev (fun d => d.drill t.val maskAll (encF5 0x33 r 0 queue st) (fun d => d.recvNbOp t.val r.val queue.toNat st.val)))
/-- QCNT (R114). -/
def execQcnt (t : TutorIx) (r : Greg) (queue : Byte) (s : State) : Host.Outcome State Fault Refusal :=
  .next (s.onDev (fun d => d.drill t.val maskSend (encF5 0x34 r 0 queue 0) (fun d => d.qcntOp t.val r.val queue.toNat)))
/-- WAIT (R106). -/
def execWait (t : TutorIx) (rd ra : Greg) (s : State) : Host.Outcome State Fault Refusal :=
  .next (s.onDev (fun d => d.drill t.val maskWait (encF6 0x38 rd ra 0) (fun d => d.wait t.val rd ra)))
/-- SIG (R106, R114). -/
def execSig (t : TutorIx) (ra : Greg) (imm : BitVec 4) (s : State) : Host.Outcome State Fault Refusal :=
  .next (s.onDev (fun d => d.drill t.val maskSig (encF6 0x39 0 ra imm) (fun d => d.sigOp t.val ra imm)))
/-- SETTMR (R106, R114). -/
def execSettmr (t : TutorIx) (ra : Greg) (s : State) : Host.Outcome State Fault Refusal :=
  .next (s.onDev (fun d => d.drill t.val maskSet (encF6 0x3A 0 ra 0) (fun d => d.settmrOp t.val ra)))
/-- RDSTEP (R114). -/
def execRdstep (t : TutorIx) (rd : Greg) (imm : BitVec 4) (s : State) : Host.Outcome State Fault Refusal :=
  .next (s.onDev (fun d => d.drill t.val maskRd (encF6 0x3B rd 0 imm) (fun d => d.rdstepOp t.val rd imm)))
/-- FENCE (R114). -/
def execFence (t : TutorIx) (s : State) : Host.Outcome State Fault Refusal :=
  .next (s.onDev (fun d => d.drill t.val maskOp (encF6 0x3C 0 0 0) (fun d => d.fenceOp t.val)))
/-- HALT (R114). -/
def execHalt (t : TutorIx) (s : State) : Host.Outcome State Fault Refusal :=
  .next (s.onDev (fun d => d.drill t.val maskOp (encF6 0x3D 0 0 0) (fun d => d.haltOp t.val)))

end Sys2Proof.Machine
end

