-- ==== Sys2Proof/Machine/EthCmds.lean ====
section
/-! DEFINITION. The commands of Ethernet ports, streams, RoCEv2 and lookups (R181 to R207). One definition per row
of the table; what an event does not apply to leaves the state as it is. -/
namespace Sys2Proof.Machine

/-- ETH_FRAME (R183). -/
def execEthFrame (p : Fin 2) (f : EthFrame) (s : State) : Host.Outcome State Fault Refusal :=
  .next (s.onDev (fun d => d.ethFrame p.val f))
/-- PFC_FRAME (R183). -/
def execPfcFrame (p : Fin 2) (s : State) : Host.Outcome State Fault Refusal := .next (s.onDev (fun d => d.pfcFrame p.val))
/-- ADDRESS_REQUEST (R182). -/
def execAddressRequest (p : Fin 2) (s : State) : Host.Outcome State Fault Refusal :=
  .next (s.onDev (fun d => d.addressRequest p.val))
/-- STREAM_FRAME (R186). -/
def execStreamFrame (p : Fin 2) (s : State) : Host.Outcome State Fault Refusal := .next (s.onDev (fun d => d.streamIn p.val))
/-- BLOCK_CLOSE (R189). -/
def execBlockClose (g : Fin 16) (s : State) : Host.Outcome State Fault Refusal := .next (s.onDev (fun d => d.blockClose g.val))
/-- STREAM_IDLE (R188). -/
def execStreamIdle (n : Fin 1024) (s : State) : Host.Outcome State Fault Refusal := .next (s.onDev (fun d => d.streamIdle n.val))
/-- PFC_REPEAT (R195). -/
def execPfcRepeat (g : Fin 16) (s : State) : Host.Outcome State Fault Refusal := .next (s.onDev (fun d => d.pfcRepeat g.val))
/-- SPILL_DRAIN (R198). -/
def execSpillDrain (g : Fin 16) (s : State) : Host.Outcome State Fault Refusal := .next (s.onDev (fun d => d.spillDrain g.val))
/-- ROCE_PACKET (R200). -/
def execRocePacket (p : Fin 2) (s : State) : Host.Outcome State Fault Refusal := .next (s.onDev (fun d => d.rocePacket p.val))
/-- LOOKUP_REQUEST (R203). -/
def execLookupRequest (p : Fin 2) (s : State) : Host.Outcome State Fault Refusal :=
  .next (s.onDev (fun d => d.lookupRequest p.val))
/-- LOOKUP_RESPONSE (R204). -/
def execLookupResponse (p : Fin 2) (s : State) : Host.Outcome State Fault Refusal :=
  .next (s.onDev (fun d => d.lookupResponse p.val))
/-- LOOKUP_TIMEOUT (R206). -/
def execLookupTimeout (p : Fin 2) (slot : BitVec 12) (s : State) : Host.Outcome State Fault Refusal :=
  .next (s.onDev (fun d => d.lookupTimeout p.val slot.toNat))
/-- ETH_LINK_CHG (R181). -/
def execEthLinkChg (p : Fin 2) (up : Bool) (s : State) : Host.Outcome State Fault Refusal :=
  .next (s.onDev (fun d => d.ethLinkChg p.val up))
/-- PFC_RX_PAUSE_END (R183). -/
def execPfcRxPauseEnd (p : Fin 2) (pri : Fin 8) (s : State) : Host.Outcome State Fault Refusal :=
  .next (s.onDev (fun d => d.pfcPauseEnd p.val pri.val))

end Sys2Proof.Machine
end

