-- ==== Sys2Proof/Machine/FabricCmds.lean ====
section
/-! DEFINITION. The commands of the Miohar fabric (R360 to R394). One definition per row
of the table; what an event does not apply to leaves the state as it is. -/
namespace Sys2Proof.Machine

/-- LINK_SIGNAL_DETECT (R366). -/
def execLinkSignalDetect (p : Fin 4) (s : State) : Host.Outcome State Fault Refusal := .next (s.onDev (fun d => d.signal p.val))
/-- LINK_SIGNAL_LOSS (R366). -/
def execLinkSignalLoss (p : Fin 4) (s : State) : Host.Outcome State Fault Refusal := .next (s.onDev (fun d => d.retrain p.val))
/-- TRAINING_TIMEOUT (R366). -/
def execTrainingTimeout (p : Fin 4) (s : State) : Host.Outcome State Fault Refusal :=
  .next (s.onDev (fun d => d.trainTimeout p.val))
/-- TRAINING_FRAME (R368). -/
def execTrainingFrame (p : Fin 4) (lane : Fin 8) (marks control : List Nat) (s : State) : Host.Outcome State Fault Refusal :=
  .next (s.onDev (fun d => d.trainFrame p.val lane.val marks control))
/-- PRBS_TEST_END (R369). -/
def execPrbsTestEnd (p : Fin 4) (errors : List Nat) (s : State) : Host.Outcome State Fault Refusal :=
  .next (s.onDev (fun d => d.prbsEnd p.val errors))
/-- PARAM_RECORD (R370). -/
def execParamRecord (p : Fin 4) (record : Bytes) (s : State) : Host.Outcome State Fault Refusal :=
  .next (s.onDev (fun d => d.paramIn p.val record))
/-- PORT_RETRAIN (R366): a write of LNK_PORT_[n]_CTL. -/
def execPortRetrain (m : Master) (p : Fin 4) (v : Word) (s : State) : Host.Outcome State Fault Refusal :=
  .next (s.write m (prtReg p.val 0) v)
/-- FLIT_GROUP (R365). -/
def execFlitGroup (p : Fin 4) (errors : List (Nat × Nat)) (gseq ack : BitVec 12) (kind : BitVec 2) (flits : List Bytes) (s : State) : Host.Outcome State Fault Refusal :=
  .next (s.onDev (fun d => d.groupIn p.val errors gseq.toNat ack.toNat kind.toNat flits))
/-- NAK_REPEAT (R365). -/
def execNakRepeat (p : Fin 4) (s : State) : Host.Outcome State Fault Refusal := .next (s.onDev (fun d => d.nakRepeat p.val))
/-- FLIT_FORWARD (R376). -/
def execFlitForward (s : State) : Host.Outcome State Fault Refusal := .next (s.onDev (fun d => d.flitForward))
/-- TASK_MESSAGE (R382). -/
def execTaskMessage (s : State) : Host.Outcome State Fault Refusal := .next (s.onDev (fun d => d.taskMessage))
/-- ACK (R384). -/
def execAck (s : State) : Host.Outcome State Fault Refusal := .next (s.onDev (fun d => d.ackIn))
/-- FENCE_FLIT (R380). -/
def execFenceFlit (src : BitVec 11) (gen : Byte) (s : State) : Host.Outcome State Fault Refusal :=
  .next (s.onDev (fun d => d.fenceIn src.toNat gen.toNat))
/-- FENCE_TIMEOUT (R380). -/
def execFenceTimeout (src : BitVec 11) (s : State) : Host.Outcome State Fault Refusal :=
  .next (s.onDev (fun d => d.fenceTimeout src.toNat))
/-- REQUEST_TIMEOUT (R384). -/
def execRequestTimeout (msg : BitVec 16) (s : State) : Host.Outcome State Fault Refusal :=
  .next (s.onDev (fun d => d.requestTimeout msg.toNat))
/-- RING_FLIT (R390). -/
def execRingFlit (port : Fin 4) (origin : BitVec 11) (seq : Word) (payload : Bytes) (s : State) : Host.Outcome State Fault Refusal :=
  .next (s.onDev (fun d => d.ringFlit port.val origin.toNat seq.toNat payload))
/-- ST_DATA_WRITE (R393): a write of LNK_PORT_[n]_ST_DATA. -/
def execStDataWrite (m : Master) (p : Fin 4) (v : Word) (s : State) : Host.Outcome State Fault Refusal :=
  .next (s.write m (prtReg p.val 0x104) v)
/-- TABLE_COMMIT (R379): a write of LNK_PORT_[n]_ST_COMMIT. -/
def execTableCommit (m : Master) (p : Fin 4) (v : Word) (s : State) : Host.Outcome State Fault Refusal :=
  .next (s.write m (prtReg p.val 0x108) v)
/-- SHUNT_CHANGE (R388). -/
def execShuntChange (column closed : Bool) (s : State) : Host.Outcome State Fault Refusal :=
  .next (s.onDev (fun d => d.shunt column closed))

end Sys2Proof.Machine
end

