-- ==== Sys2Proof/Machine/FaultCmds.lean ====
section
/-! DEFINITION. The commands of faults and escalation (R395 to R412). One definition per row
of the table; what an event does not apply to leaves the state as it is. -/
namespace Sys2Proof.Machine

/-- FAULT_OCCURRENCE (R397). -/
def execFaultOccurrence (source : Fin 512) (unit detail addr : Nat) (s : State) : Host.Outcome State Fault Refusal :=
  .next (s.onDev (fun d => d.fault source.val unit detail addr))
/-- GRACE_EXPIRY (R401, R404). -/
def execGraceExpiry (s : State) : Host.Outcome State Fault Refusal := .next (s.graceExpiry)
/-- FLT_ACK (R400). -/
def execFltAck (m : Master) (v : Word) (s : State) : Host.Outcome State Fault Refusal := .next (s.write m (FLT + 0x14) v)
/-- RESUME (R405): a write of FLT_CTL. -/
def execResume (m : Master) (v : Word) (s : State) : Host.Outcome State Fault Refusal := .next (s.write m FLT v)
/-- TILE_FAIL (R408). -/
def execTileFail (tile : TileIx) (detail : Fin 5) (addr : Nat) (s : State) : Host.Outcome State Fault Refusal :=
  .next (s.onDev (fun d => d.tileFail tile.val detail.val addr))

end Sys2Proof.Machine
end

