-- ==== Sys2Proof/Machine/IntakeCmds.lean ====
section
/-! DEFINITION. The commands of table intake and the epoch cache (R159 to R180). One definition per row
of the table; what an event does not apply to leaves the state as it is. -/
namespace Sys2Proof.Machine

/-- DECODE_TASK (R161). -/
def execDecodeTask (seat : Seat) (s : State) : Host.Outcome State Fault Refusal :=
  .next (s.onDev (fun d => d.decodeTask seat.val))
/-- ASSIST_TIMEOUT (R178). -/
def execAssistTimeout (c : Fin 16) (ticket : BitVec 24) (s : State) : Host.Outcome State Fault Refusal :=
  .next (s.onDev (fun d => d.assistTimeout c.val ticket.toNat))
/-- REPLAY_BATCH_SEND (R174). -/
def execReplayBatchSend (c : Fin 16) (s : State) : Host.Outcome State Fault Refusal :=
  .next (s.onDev (fun d => d.replaySend c.val))
/-- WINDOW_SWAP (R174). -/
def execWindowSwap (c : Fin 16) (s : State) : Host.Outcome State Fault Refusal := .next (s.onDev (fun d => d.windowSwap c.val))
/-- CMD_SWAP (R174): a write of MEM_ICH_[c]_CMD. -/
def execCmdSwap (m : Master) (c : Fin 16) (v : Word) (s : State) : Host.Outcome State Fault Refusal :=
  .next (s.write m (ichReg c.val 0x54) v)
/-- CMD_TERM_ADVANCE (R175): a write of MEM_ICH_[c]_CMD. -/
def execCmdTermAdvance (m : Master) (c : Fin 16) (v : Word) (s : State) : Host.Outcome State Fault Refusal :=
  .next (s.write m (ichReg c.val 0x54) v)

end Sys2Proof.Machine
end

