-- ==== Sys2Proof/Machine/MemCmds.lean ====
section
/-! DEFINITION. The commands of compression and memory (R330 to R359). One definition per row
of the table; what an event does not apply to leaves the state as it is. -/
namespace Sys2Proof.Machine

/-- CMP_JOB_START (R330). -/
def execCmpJobStart (q : Quad) (pack : Bool) (s : State) : Host.Outcome State Fault Refusal :=
  .next (s.onDev (fun d => d.jobStart q.val pack))
/-- CMP_JOB_END (R343). -/
def execCmpJobEnd (q : Quad) (pack : Bool) (s : State) : Host.Outcome State Fault Refusal :=
  .next (s.onDev (fun d => d.jobEnd q.val pack))
/-- CMP_SUBMIT_GO (R344): a write of CMP_SUBMIT. -/
def execCmpSubmitGo (m : Master) (q : Quad) (v : Word) (s : State) : Host.Outcome State Fault Refusal :=
  .next (s.write m (qdrReg q.val 0x8C0) v)
/-- DRAM_REFRESH (R353): contents and registers stay as they are. -/
def execDramRefresh (ch : Fin 16) (s : State) : Host.Outcome State Fault Refusal := .next (s.onDev (fun d => d))
/-- SCRUB_READ (R354). -/
def execScrubRead (ch : Fin 16) (found : LineFinding) (s : State) : Host.Outcome State Fault Refusal :=
  .next (s.onDev (fun d => d.scrub ch.val found))

end Sys2Proof.Machine
end

