-- ==== Sys2Proof/Machine/SeatEnd.lean ====
section
/-! DEFINITION. The end of seating (R67, R68, R72, R176, R207). -/
namespace Sys2Proof.Machine

/-- Ingest channels take what the DECODE seats say (R180); a cache allocation kept with PRESERVE may resume, one not kept holds
nothing any more (R176). -/
def Dev.seatChannels (d : Dev) (p : Plat) (kept : List Alloc) : Dev :=
  let d := (List.range 16).foldl Dev.leaveIch d
  let d := { d with caches := d.caches.filter (fun e => kept.any (fun a => a.id == e.1)) }
  let blocks := p.seating.filter (fun e => e.role == 1)
  (List.range 16).foldl (fun d c =>
    match blocks.find? (fun e => fld e.params 0 1 == c) with
    | none => d
    | some e => d.seatIch e.params (((denseSeat e.seat).bind seatQuad).getD 0) (kept.any (fun a => a.id == Dp.cacheAlloc e.params))) d

/-- An Ethernet port is in use when its seat is seated PORT (R55, R207). -/
def Dev.seatPorts (d : Dev) : Dev :=
  (List.range 2).foldl (fun d n =>
    if (d.seat (1300 + n)).role = 15 ∧ !(d.eth n).failed then d.wbit (ethReg n 0) 31 true
    else (d.wbit (ethReg n 0) 31 false).ethLinkDown n) d

/-- A compression engine is enabled when its Plat uses it (R345). -/
def Dev.seatPipes (d : Dev) : Dev := (List.range 8).foldl (fun d q => d.wbit (qdrReg q 0x800) 0 true) d

/-- The timetable of a Plat: every entry cleared, then armed in ascending index (R67). -/
def Dev.seatTimetable (d : Dev) (es : List TtEntry) : Dev :=
  let d := (List.range 256).foldl (fun d n => if d.rn (ttbEnt n 4) = 0 then d else d.wbit (ttbEnt n 4) 31 false) d
  (sortBy (fun (a b : TtEntry) => a.index ≤ b.index) es).foldl (fun d e =>
    let d := (d.wn (ttbEnt e.index 0) (e.phase * 65536 + e.ofs)).wn (ttbEnt e.index 8) e.arg
    d.ttWriteB e.index (2 ^ 31 + at_ (b2n e.repeat_) 30 + at_ e.action 16 + at_ e.interval 8)) d

/-- SEATING_COMPLETE (R72): the last running task has ended; registers, drills, seats and timetable of the Plat take effect,
its load completes, and a Plat staged meanwhile follows when nothing holds it. DESIGN CHOICE (log entry 82): fragments and
containers accepted while the module was SEATING were built against the outgoing Plat, and are dropped. -/
def Dev.seatingComplete (d : Dev) (digest : Bytes → Bytes) : Dev :=
  match d.plt.incoming with
  | none => d
  | some (p, o) =>
    if !d.plt.seating || d.anyRunning then d
    else
      let (d, kept) := d.switchOver p
      let d := (List.range 16).foldl (fun d c => d.wbit (ichReg c 0) 31 false) d
      let d := p.registers.foldl (fun d r => d.regPair r.1 r.2) d
      let d := (((d.openSeats p).seatChannels p kept).seatPorts).seatPipes
      let d := ((d.seatTimetable p.timetable).platRegs p).dropStaged
      let d := { d with plt := { d.plt with
        seated := true, seating := false, incoming := none, ringWait := false, digest := digest (p.raw.take (p.raw.length - 128)) } }
      let d := match o with | some o => d.complete o none .ok 0 0 | none => d
      d.switchNow

end Sys2Proof.Machine
end

