-- ==== Sys2Proof/Machine/PlatCmds.lean ====
section
/-! DEFINITION. The commands of the Plat and of seating (R49 to R83). One definition per row
of the table; what an event does not apply to leaves the state as it is. -/
namespace Sys2Proof.Machine

/-- PLAT_LOAD (R69): the bytes of the buffer, none for a host error. -/
def execPlatLoad (data : Option Bytes) (s : State) : Host.Outcome State Fault Refusal :=
  .next (if s.running then (s.platLoad data).settle else s)
/-- SEATING_COMPLETE (R72). -/
def execSeatingComplete (s : State) : Host.Outcome State Fault Refusal :=
  .next (s.onDev (fun d => d.seatingComplete Config.sha384))
/-- HOLD_SWITCH_CLEAR (R71): a write of PLT_CTL. -/
def execHoldSwitchClear (m : Master) (v : Word) (s : State) : Host.Outcome State Fault Refusal := .next (s.write m PLT v)
/-- RESEAT_OPEN (R77). -/
def execReseatOpen (seat : Seat) (s : State) : Host.Outcome State Fault Refusal := .next (s.onDev (fun d => d.openSeat seat.val))

end Sys2Proof.Machine
end

