-- ==== Sys2Proof/Machine/RegCmds.lean ====
section
/-! DEFINITION. The commands of register and aperture accesses (R117 to R136, R243, R267, R286, R311, R329, R345, R359). One definition per row
of the table; what an event does not apply to leaves the state as it is. -/
namespace Sys2Proof.Machine

/-- REGISTER_WRITE (R121, R126 to R128): at a BAR0 offset of the host or a device address of another master. -/
def execRegisterWrite (m : Master) (addr : BitVec 48) (width : BitVec 8) (v : DWord) (s : State) : Host.Outcome State Fault Refusal :=
  .next (s.access m addr.toNat width.toNat v)
/-- BIT_ALIAS_WRITE (R129, R130). -/
def execBitAliasWrite (m : Master) (addr : BitVec 48) (width : BitVec 8) (v : Word) (s : State) : Host.Outcome State Fault Refusal :=
  .next (s.bitAccess m addr.toNat width.toNat v)
/-- APERTURE_WRITE (R125). -/
def execApertureWrite (offset : BitVec 24) (data : Bytes) (s : State) : Host.Outcome State Fault Refusal :=
  .next (s.onHost (fun d => d.apertureWrite offset.toNat data))
/-- BAR4_ACCESS (R124). -/
def execBar4Access (write : Bool) (offset : BitVec 48) (length : Nat) (data : Bytes) (s : State) : Host.Outcome State Fault Refusal :=
  .next (s.onHost (fun d => d.bar4 write offset.toNat (if write then data.length else length) data))
/-- TILE_COUNTER_CLEAR (R134): a write of TIL_CTL. -/
def execTileCounterClear (m : Master) (tile : TileIx) (v : Word) (s : State) : Host.Outcome State Fault Refusal :=
  .next (s.write m (tilReg tile.val 8) v)
/-- TILE_INJECT (R134): a write of TIL_CTL. -/
def execTileInject (m : Master) (tile : TileIx) (v : Word) (s : State) : Host.Outcome State Fault Refusal :=
  .next (s.write m (tilReg tile.val 8) v)
/-- CLU_CLEAR (R135): a write of CLU_CTL. -/
def execCluClear (m : Master) (c : ClusterIx) (v : Word) (s : State) : Host.Outcome State Fault Refusal :=
  .next (s.write m (cluReg c.val 8) v)
/-- CLU_STAT_CLEAR (R136): a write of CLU_STAT_CTL. -/
def execCluStatClear (m : Master) (c : ClusterIx) (v : Word) (s : State) : Host.Outcome State Fault Refusal :=
  .next (s.write m (cluReg c.val 0x804) v)
/-- TIL_COL_CLEAR (R243): a write of TIL_COL_CLR. -/
def execTilColClear (m : Master) (tile : TileIx) (v : Word) (s : State) : Host.Outcome State Fault Refusal :=
  .next (s.write m (tilReg tile.val 0x60) v)
/-- TIL_MX_CLEAR (R286): a write of TIL_MX_CLR. -/
def execTilMxClear (m : Master) (tile : TileIx) (v : Word) (s : State) : Host.Outcome State Fault Refusal :=
  .next (s.write m (tilReg tile.val 0x58) v)
/-- SEL_CLEAR (R329): a write of SEL_CLR. -/
def execSelClear (m : Master) (tile : TileIx) (v : Word) (s : State) : Host.Outcome State Fault Refusal :=
  .next (s.write m (tilReg tile.val 0xA0) v)
/-- GTH_CLEAR (R311): a write of GTH_CTL. -/
def execGthClear (m : Master) (c : ClusterIx) (v : Word) (s : State) : Host.Outcome State Fault Refusal :=
  .next (s.write m (cluReg c.val 0x400) v)
/-- REPL_DISABLE (R311): a write of GTH_CTL. -/
def execReplDisable (m : Master) (c : ClusterIx) (v : Word) (s : State) : Host.Outcome State Fault Refusal :=
  .next (s.write m (cluReg c.val 0x400) v)
/-- CMP_CLEAR (R345): a write of CMP_CLR. -/
def execCmpClear (m : Master) (q : Quad) (v : Word) (s : State) : Host.Outcome State Fault Refusal :=
  .next (s.write m (qdrReg q.val 0x82C) v)
/-- MEM_TD_CLEAR (R267): a write of MEM_TD_CLR. -/
def execMemTdClear (m : Master) (v : Word) (s : State) : Host.Outcome State Fault Refusal := .next (s.write m (MEM + 0x31018) v)
/-- MEM_ERR_CLEAR (R359): a write of MEM_ERR_CLR. -/
def execMemErrClear (m : Master) (v : Word) (s : State) : Host.Outcome State Fault Refusal := .next (s.write m (MEM + 0x20) v)

end Sys2Proof.Machine
end

