-- ==== Sys2Proof/Machine/RingCmds.lean ====
section
/-! DEFINITION. The commands of rings, descriptors and the host link (R139 to R157). One definition per row
of the table; what an event does not apply to leaves the state as it is. -/
namespace Sys2Proof.Machine

/-- RING_ENABLE (R143): a write of RNG_[n]_CTL with EN 1. -/
def execRingEnable (m : Master) (n : RingIx) (v : Word) (s : State) : Host.Outcome State Fault Refusal :=
  .next (if v.getLsbD 31 then s.write m (rngReg n.val 0) v else s)
/-- RING_DISABLE (R143): a write of RNG_[n]_CTL with EN 0. -/
def execRingDisable (m : Master) (n : RingIx) (v : Word) (s : State) : Host.Outcome State Fault Refusal :=
  .next (if v.getLsbD 31 then s else s.write m (rngReg n.val 0) v)
/-- DOORBELL (R145): a write through BAR2. -/
def execDoorbell (offset : BitVec 26) (width : BitVec 8) (v : DWord) (s : State) : Host.Outcome State Fault Refusal :=
  .next (s.onHost (fun d => d.bar2 offset.toNat width.toNat v))
/-- DESCRIPTOR_FETCH (R145): what the host answered, entry by entry. -/
def execDescriptorFetch (data : List (Option Bytes)) (s : State) : Host.Outcome State Fault Refusal :=
  .next (s.onHost (fun d => d.fetch data))
/-- COPY_IN (R147). -/
def execCopyIn (n : RingIx) (data : Option Bytes) (s : State) : Host.Outcome State Fault Refusal :=
  .next (s.onDev (fun d => d.copyIn n.val data))
/-- IN_PLACE (R147). -/
def execInPlace (n : RingIx) (s : State) : Host.Outcome State Fault Refusal := .next (s.onDev (fun d => d.inPlace n.val))
/-- RX_BUFFER (R148). -/
def execRxBuffer (n : RingIx) (s : State) : Host.Outcome State Fault Refusal := .next (s.onDev (fun d => d.rxBuffer n.val))
/-- CMP_JOB (R149). -/
def execCmpJob (n : RingIx) (s : State) : Host.Outcome State Fault Refusal := .next (s.onDev (fun d => d.cmpJob n.val))
/-- NOP (R146). -/
def execNop (s : State) : Host.Outcome State Fault Refusal := .next (s.onDev (fun d => d.nop))
/-- ALLOC_ADD (R150). -/
def execAllocAdd (s : State) : Host.Outcome State Fault Refusal := .next (s.onDev (fun d => d.allocAdd))
/-- ALLOC_FREE (R150). -/
def execAllocFree (s : State) : Host.Outcome State Fault Refusal := .next (s.onDev (fun d => d.allocFree))
/-- TDESC_CREATE (R249). -/
def execTdescCreate (data : Option Bytes) (s : State) : Host.Outcome State Fault Refusal :=
  .next (s.onDev (fun d => d.tdescCreate data))
/-- TDESC_DESTROY (R254). -/
def execTdescDestroy (s : State) : Host.Outcome State Fault Refusal := .next (s.onDev (fun d => d.tdescDestroy))
/-- TDESC_REMOVE (R254). -/
def execTdescRemove (slot : BitVec 16) (s : State) : Host.Outcome State Fault Refusal :=
  .next (s.onDev (fun d => d.tdRemove slot.toNat))
/-- FRAG_APPLY (R74). -/
def execFragApply (s : State) : Host.Outcome State Fault Refusal := .next (s.onDev (fun d => d.fragApply))
/-- FRAG_WITHDRAW (R150). -/
def execFragWithdraw (s : State) : Host.Outcome State Fault Refusal := .next (s.onDev (fun d => d.fragWithdraw))
/-- TASK_INJECT (R150). -/
def execTaskInject (s : State) : Host.Outcome State Fault Refusal := .next (s.onDev (fun d => d.taskInject))
/-- CANCEL (R94). -/
def execCancel (s : State) : Host.Outcome State Fault Refusal := .next (s.onDev (fun d => d.cancelDesc))
/-- COMPLETION_POST (R152). -/
def execCompletionPost (n : RingIx) (s : State) : Host.Outcome State Fault Refusal := .next (s.onDev (fun d => d.postCpl n.val))
/-- EVENT_POST (R156). -/
def execEventPost (n : RingIx) (s : State) : Host.Outcome State Fault Refusal := .next (s.onDev (fun d => d.postEvent n.val))
/-- IRQ_TIMER (R157). -/
def execIrqTimer (n : RingIx) (s : State) : Host.Outcome State Fault Refusal := .next (s.onDev (fun d => d.irqTimer n.val))
/-- MSIX_UNMASK (R157). -/
def execMsixUnmask (vector : BitVec 11) (s : State) : Host.Outcome State Fault Refusal :=
  .next (s.onHost (fun d => d.msixUnmask vector.toNat))
/-- RX_DELIVERY (R148). -/
def execRxDelivery (n : RingIx) (s : State) : Host.Outcome State Fault Refusal := .next (s.onDev (fun d => d.rxDeliver n.val))
/-- HOST_LINK_RESET (R139). -/
def execHostLinkReset (e : HostLinkEvent) (s : State) : Host.Outcome State Fault Refusal :=
  .next (s.onDev (fun d => d.linkReset (e == .flr) (e == .d3hot)))
/-- PERST (R414, R418). -/
def execPerst (low : Bool) (s : State) : Host.Outcome State Fault Refusal := .next (s.perst low)

end Sys2Proof.Machine
end

