-- ==== Sys2Proof/Machine/SchedCmds.lean ====
section
/-! DEFINITION. The commands of the schedulers (R84 to R99). One definition per row
of the table; what an event does not apply to leaves the state as it is. -/
namespace Sys2Proof.Machine

/-- TASK_PACKET (R85): the k-th packet under way to an input port. -/
def execTaskPacket (q : Quad) (port : Fin 4) (k : Nat) (s : State) : Host.Outcome State Fault Refusal :=
  .next (s.onDev (fun d => d.arrive q.val port.val k))
/-- HELD_PACKET_ADMIT (R87). -/
def execHeldPacketAdmit (q : Quad) (port : Fin 4) (s : State) : Host.Outcome State Fault Refusal :=
  .next (s.onDev (fun d => d.readmit q.val port.val))
/-- TASK_DISPATCH (R90): tasks are selected for seats and compression jobs for their engine (R331), with the batches that the
dispatch of a later tag closes (R40). -/
def execTaskDispatch (q : Quad) (s : State) : Host.Outcome State Fault Refusal := 
  .next (s.onDev (fun d => ((d.dispatch q.val).cmpEnter q.val).closeByDispatch q.val))
/-- AGE_PROMOTE (R89). -/
def execAgePromote (q : Quad) (index : BitVec 12) (s : State) : Host.Outcome State Fault Refusal :=
  .next (s.onDev (fun d => d.age q.val index.toNat))
/-- TASK_COMPLETE (R93). -/
def execTaskComplete (seat : Seat) (e : TaskEnd) (s : State) : Host.Outcome State Fault Refusal :=
  .next (s.onDev (fun d => d.complete1 seat.val e.quad.val e.corrected e.stalls))
/-- RESULT_RELEASE (R93). -/
def execResultRelease (q : Quad) (s : State) : Host.Outcome State Fault Refusal := .next (s.onDev (fun d => d.release q.val))
/-- LAF_POST (R99). -/
def execLafPost (q : Quad) (s : State) : Host.Outcome State Fault Refusal := .next (s.onDev (fun d => d.lafPost q.val))

end Sys2Proof.Machine
end

