-- ==== Sys2Proof/Machine/Joins.lean ====
section
/-! DEFINITION. Joins and sequence assembly (R231 to R236, R240 to R242). -/
namespace Sys2Proof.Machine

/-! Keys and carried columns -/

/-- Key of a row: its working value, or its bytes; none for a null. -/
def BCol.key (c : BCol) (samples : Nat) (f : Int) (i : Nat) : Option (Int × Bytes) :=
  if c.binary then (c.val samples i).map (fun b => (0, b)) else (c.work samples f i).map (fun w => (w.1, []))

/-- H of R231. -/
def keyHash (binary : Bool) (seed : BitVec 64) (k : Int × Bytes) : Nat :=
  if binary then (byteHash seed k.2).toNat else (hashOf seed k.1).toNat

/-- Columns carried from a row: column to become, type, value. -/
def carryRow (b : DBatch) (cs : List ColOp) (i : Nat) : List (Nat × Nat × Option Bytes) :=
  cs.map (fun o => match b.col o.inA with
    | some c => (o.out, c.type, c.val b.samples i)
    | none => (o.out, 0, none))

/-- Carried columns are there and fixed-width, FIXED_BINARY of at most 256 bytes (R231). -/
def carryOk (b : DBatch) (cs : List ColOp) : Bool :=
  cs.all (fun o => match b.col o.inA with
    | some c => c.flat b.samples && (c.numeric || c.type == 0xA || c.type == 0xB || (c.type == 0xD && c.width ≤ 256))
    | none => false)

/-- What the carried columns become: column, type, width. -/
def carryShape (b : DBatch) (cs : List ColOp) : List (Nat × Nat × Nat) :=
  cs.map (fun o => match b.col o.inA with | some c => (o.out, c.type, c.width) | none => (o.out, 0, 0))

/-- CB: the sum of the carried widths; a BOOL counts one byte. -/
def carryBytes (b : DBatch) (cs : List ColOp) : Nat :=
  cs.foldl (fun n o => n + match b.col o.inA with | some c => c.width | none => 0) 0

/-! The build side (R231, R232, R236) -/

def joinParts (o : ColOp) : Nat := bits o.p0 6 0
/-- The partition allocations. -/
def partList (p : Bytes) (o : ColOp) : List Nat := (List.range (joinParts o)).map (fun i => fld p (o.p1.toNat + 4 * i) 4)

/-- Bytes a row takes (R231). -/
def rowBytes (cb : Nat) : Nat := upTo (16 + cb) 16

/-- Rows that a partition holds: its whole allocation, or one half of it under PER_TAG. -/
def Dev.partRoom (d : Dev) (alloc : Nat) (perTag : Bool) (rb : Nat) : Nat :=
  match d.alloc alloc with | some a => (if perTag then a.size / 2 else a.size) / rb | none => 0

/-- Insert a row: it goes to its partition, or to the spill; a spill that is full or absent breaks the build (R236). A build is
held against the whole SPILL_ALLOC by its own rows alone, so that neither another build nor timing can break it (DESIGN CHOICE,
log entry 99). -/
def Dev.insertRow (d : Dev) (id key_ : Nat) (perTag : Bool) (parts : List Nat) (spill rb : Nat) (r : JoinRow) : Dev :=
  let j := d.join id
  let t := tget {} j.tabs key_
  let n := (t.rows.filter (fun x => x.part == r.part)).length
  if n < d.partRoom (parts.getD r.part 0) perTag rb then
    d.setJoin id { j with tabs := tput j.tabs key_ { t with rows := t.rows ++ [r] } }
  else
    let room := match d.alloc spill with | some a => if spill = 0 then 0 else a.size | none => 0
    if t.spilled + rb ≤ room then
      d.setJoin id { j with tabs := tput j.tabs key_ { t with rows := t.rows ++ [r], spilled := t.spilled + rb } }
    else d.setJoin id { j with tabs := tput j.tabs key_ { t with broken := true } }

/-- Probe tasks of a tag that have not completed; one that has no seat yet counts by the block of the seat it may run on. -/
def Dev.probesLeft (d : Dev) (id tag : Nat) : Bool :=
  d.quads.any (fun q => q.2.tasks.any (fun t => t.role == 7 && t.idx.isSome && t.tag.toNat == tag && t.phase != .finished
    && probesJoin (if t.phase.early then d.seatBlock q.1 t else t.params) id))

/-- A tag is released: every probe task of it has completed, and one of a greater tag has been dispatched (R232). -/
def Dev.tagReleased (d : Dev) (id tag : Nat) : Bool :=
  (match (d.join id).probed with | some p => decide (tag < p) | none => false) && !d.probesLeft id tag

/-- A build of a tag must wait for the tag that holds its half (R232). -/
def Dev.buildWaits (d : Dev) (id tag : Nat) : Bool :=
  (d.join id).tabs.any (fun e => e.1 < tag && e.1 % 2 == tag % 2 && !d.tagReleased id e.1)

/-- The table that a task of a tag uses: of its tag, or the one of a PERSISTENT build. -/
def tabKey (perTag : Bool) (tag : Nat) : Nat := if perTag then tag else 0
def Dev.joinTab (d : Dev) (id key_ : Nat) : JoinTab := tget {} (d.join id).tabs key_

/-- Change a table of a join. -/
def Dev.modTab (d : Dev) (id key_ : Nat) (f : JoinTab → JoinTab) : Dev :=
  let j := d.join id
  d.setJoin id { j with tabs := tput j.tabs key_ (f (d.joinTab id key_)) }

/-- A build entry opens its table; under PER_TAG the released tags of the same half make room for it. -/
def Dev.openBuild (d : Dev) (o : ColOp) (tag : Nat) : Dev :=
  let id := joinId o
  let perTag := !bit o.mode 0
  let j := d.join id
  let d := d.setJoin id { j with tabs := if perTag then j.tabs.filter (fun e => !(e.1 < tag && e.1 % 2 == tag % 2)) else j.tabs }
  d.modTab id (tabKey perTag tag) (·)

/-- Keys of a batch that clamped to a working value (R212). -/
def keySats (b : DBatch) (c : BCol) (f : Int) : Nat := if c.binary then 0 else (b.works c f).2

/-- One BUILD entry on a task's batch: its rows inserted in slot order, the clamps counted, and the status it fails with (R231,
R236). -/
def Dev.buildEntry (d : Dev) (t : Task) (b : DBatch) (o : ColOp) (cs : List ColOp) : Dev × ColCnt × Option Status :=
  let perTag := !bit o.mode 0
  let id := joinId o
  let k := tabKey perTag t.tag.toNat
  match b.col o.inA, (if o.inB = 0xFFFF then some none else (b.col o.inB).map some) with
  | some c, some time =>
    if !c.flat b.samples || !(c.numeric || c.binary) || !carryOk b cs || (d.joinTab id k).keyType.any (· != c.type)
        || (match time with | some e => !e.flat b.samples || e.type != 8 | none => false) then (d, {}, some .format)
    else
      let seed := BitVec.ofNat 64 (fld t.params 24 8)
      let rb := rowBytes (carryBytes b cs)
      let d := d.setJoin id { d.join id with shape := carryShape b cs }
      let d := d.modTab id k (fun x => { x with keyType := some c.type })
      let d := (List.range b.samples).foldl (fun (d : Dev) i =>
        if !b.valid.getD i false || (d.joinTab id k).broken then d
        else match c.key b.samples o.workExp i with
          | none => d
          | some key =>
            let tm := match time with | some e => ((e.val b.samples i).map ofLe).getD 0 | none => 0
            d.insertRow id k perTag (partList t.params o) (fld t.params 12 4) rb
              { part := mulHi (keyHash c.binary seed key) (joinParts o), key, time := tm, carried := carryRow b cs i }) d
      (d, { sat := keySats b c o.workExp }, if (d.joinTab id k).broken then some .outputFull else none)
  | _, _ => (d, {}, some .format)

/-- The BUILD entries of a task in entry order, until one fails; what the earlier ones did stands. -/
def buildEntries (t : Task) (b : DBatch) : List (ColOp × List ColOp) → Dev → ColCnt → Dev × ColCnt × Option Status
  | [], d, n => (d, n, none)
  | (o, cs) :: r, d, n =>
    match d.buildEntry t b o cs with
    | (d, k, none) => buildEntries t b r d (n.add k)
    | (d, k, some st) => (d, n.add k, some st)

/-- JOIN_BUILD_TASK (R231, R232, R236). A task of LENGTH 0 seals its builds; of a broken one it ends OUTPUT_FULL. -/
def Dev.buildTask (d : Dev) (s : Nat) : Dev :=
  match d.atWork s 6 with
  | none => d
  | some (q, t) =>
    let es := codeOps 0x40 (colOps t.params)
    let tag := t.tag.toNat
    let tab (d : Dev) (o : ColOp) : JoinTab := d.joinTab (joinId o) (tabKey (!bit o.mode 0) tag)
    if d.laneBefore q t || es.any (fun e => !bit e.1.mode 0 && d.buildWaits (joinId e.1) tag) then d
    else if es.any (fun e => bit e.1.mode 0 && (tab d e.1).sealed_) then d.workFail q t.uid .descInvalid
    else
      let e := es.foldl (fun (d : Dev) e => d.openBuild e.1 tag) d
      let broken := es.any (fun x => (tab e x.1).broken)
      if ((t.operand 0).map Pkt.length).getD 0 = 0 then
        let e := es.foldl (fun (d : Dev) x =>
          d.modTab (joinId x.1) (tabKey (!bit x.1.mode 0) tag) (fun y => { y with sealed_ := true })) e
        (if broken then e.colFull s q t.uid {} else e.workDone q t.uid .ok []).promoteAll
      else if broken then e.colFull s q t.uid {}
      else
        let (e, data) := e.operandData t 0
        match data with
        | none => e.workFail q t.uid .eccUncorrectable
        | some raw => match d.inputBatch t.params raw with
          | none => e.colFormat s q t.uid {}
          | some b => match buildEntries t b es e {} with
            | (e, n, none) =>
              if t.routes.isEmpty then (e.colCount s n).workDone q t.uid .ok [] else d.colOut e s q t.uid t.params n [b.bytes]
            | (e, n, some st) => if st = .outputFull then e.colFull s q t.uid n else e.colFormat s q t.uid n

/-! The probe side (R233 to R235) -/

/-- Matches of a probe row: the carried columns of each, in chain order. -/
abbrev Matches := List (List (Nat × Nat × Option Bytes))

/-- The one match of an as-of probe at a time (R234). -/
def asof (rows : List JoinRow) (t age : Nat) : Matches :=
  let best := rows.foldl (fun (a : Option JoinRow) r =>
    if t < r.time then a
    else match a with
      | none => some r
      | some x => if x.time ≤ r.time then some r else a) none
  match best with
  | some r => if age ≠ 0 ∧ age < t - r.time then [] else [r.carried]
  | none => []

/-- Output rows of one probe row: whether it matched, and the carried columns (none for nulls); and the matches cut off. -/
def probeRow (kind maxMatch : Nat) (valid : Bool) (ms : Matches) :
    List (Bool × Option (List (Nat × Nat × Option Bytes))) × Nat :=
  if !valid then (if kind = 1 then [(false, none)] else [], 0)
  else match kind with
    | 0 => ((ms.take maxMatch).map (fun m => (true, some m)), ms.length - maxMatch)
    | 1 => if ms.isEmpty then ([(false, none)], 0) else ((ms.take maxMatch).map (fun m => (true, some m)), ms.length - maxMatch)
    | 2 => (if ms.isEmpty then [] else [(true, none)], 0)
    | _ => (if ms.isEmpty then [(false, none)] else [], 0)

/-- An output batch of a probe: picked rows, MATCHED and the carried columns. -/
def probeBatch (b : DBatch) (o : ColOp) (shape : List (Nat × Nat × Nat))
    (rows : List (Nat × Bool × Option (List (Nat × Nat × Option Bytes)))) : Option (DBatch × Nat) :=
  let (cols, n) := b.pick (rows.map (·.1))
  let carry := o.mode / 4 % 4 < 2
  let extra := if carry then shape.map (fun sh =>
      let vals := rows.map (fun r => r.2.2.bind (fun m => (m.find? (fun x => x.1 == sh.1)).bind (·.2.2)))
      mkCol sh.1 sh.2.1 0 sh.2.2 [] vals []) else []
  let mcol := if o.out = 0xFFFF then [] else [mkCol o.out 9 0 1 [] (rows.map (fun r => some [if r.2.1 then 1#8 else 0#8])) []]
  let all : List BCol := cols ++ extra ++ mcol
  let ids : List Nat := all.map (fun (c : BCol) => c.idx)
  if ids = dedup ids then
    some ({ b with samples := rows.length, filled := rows.length, voided := 0, substituted := 0, cols := all
                   valid := rows.map (fun r => b.valid.getD r.1 false), subst := rows.map (fun r => b.subst.getD r.1 false) }, n)
  else none

/-- Batches of at most 65,536 rows; at least one, be it of no rows. -/
def cutRows {α : Type} (l : List α) : List (List α) := if l.isEmpty then [[]] else chunk 65536 l

/-- Keys never fall (R235). -/
def sortedKeys (ks : List (Option Int)) : Bool :=
  let v := ks.filterMap id
  (v.zip v.tail).all (fun p => p.1 ≤ p.2)

/-- Keys of a merge join's rows: the values themselves, signed or unsigned as their type, so that no clamp makes two keys one
(R235); none for invalid or null. -/
def mergeKeys (b : DBatch) (c : BCol) (f : Int) : List (Option Int) :=
  (List.range b.samples).map (fun i => if b.valid.getD i false then c.exact b.samples f i else none)

/-- Row keys of a batch, none for invalid or null. -/
def rowKeys (b : DBatch) (c : BCol) (f : Int) : List (Option (Int × Bytes)) :=
  (List.range b.samples).map (fun i => if b.valid.getD i false then c.key b.samples f i else none)

/-- The outputs of a probe given each row's matches; none is FORMAT. -/
def probeOut (b : DBatch) (o : ColOp) (shape : List (Nat × Nat × Nat)) (ms : List Matches) : Option (List DBatch × ColCnt) :=
  let rows := (List.range b.samples).map (fun i =>
    let r := probeRow (o.mode / 4 % 4) (bits o.p0 15 0) (b.valid.getD i false) (ms.getD i [])
    (r.1.map (fun x => (i, x)), r.2))
  let all := rows.flatMap (·.1)
  let cut := (rows.map (·.2)).foldl (· + ·) 0
  (cutRows all).foldl (fun (a : Option (List DBatch × ColCnt)) l =>
    match a, probeBatch b o shape l with
    | some (bs, n), some (x, k) => some (bs ++ [x], { n with sat := n.sat + k })
    | _, _ => none) (some ([], { trunc := cut }))

/-- A merge probe entry: the right batch's rows in order take the place of a table (R235); none is FORMAT. -/
def mergeEntry (b right : DBatch) (o : ColOp) (cs : List ColOp) (c : BCol) : Option (List DBatch × ColCnt) :=
  match right.col o.inA with
  | none => none
  | some rc =>
    let keys := mergeKeys b c o.workExp
    let rkeys := mergeKeys right rc o.workExp
    if !rc.flat right.samples || rc.type != c.type || !c.numeric || !carryOk right cs || !(sortedKeys keys && sortedKeys rkeys) then none
    else
      let find (key : Option Int) : Matches :=
        if key.isNone then [] else ((List.range right.samples).filter (fun i => rkeys.getD i none == key)).map (carryRow right cs)
      probeOut b o (carryShape right cs) (keys.map find)

/-- Matches of a probe batch's rows in a table: every row of an equal key, or the one of R234. -/
def tableMatches (b : DBatch) (o : ColOp) (c : BCol) (tab : JoinTab) (time : Option BCol) : List Matches :=
  (rowKeys b c o.workExp).zipIdx.map (fun x => match x.1 with
    | none => []
    | some key =>
      let rows := tab.rows.filter (fun r => r.key == key)
      match time with
      | none => rows.map (·.carried)
      | some e => match e.val b.samples x.2 with
        | some t => asof rows (ofLe t) (tc 64 o.p1)
        | none => [])

/-- One PROBE entry on a batch (R233 to R235); none is FORMAT. -/
def Dev.probeEntry (d : Dev) (tag : Nat) (right : Option DBatch) (b : DBatch) (o : ColOp) (cs : List ColOp) :
    Option (List DBatch × ColCnt) :=
  match b.col o.inA with
  | none => none
  | some c =>
    if !c.flat b.samples || !(c.numeric || c.binary) then none
    else if o.mode % 4 = 1 then right.bind (fun r => mergeEntry b r o cs c)
    else
      let id := joinId o
      let tab := d.joinTab id (tabKey (d.joinPerTag id) tag)
      match (if o.mode % 4 = 2 then (b.col o.inB).map some else some none) with
      | none => none
      | some time =>
        if tab.keyType.any (· != c.type) || (match time with | some e => !e.flat b.samples || e.type != 8 | none => false) then none
        else (probeOut b o (d.join id).shape (tableMatches b o c tab time)).map (fun r =>
          (r.1, { r.2 with sat := r.2.sat + keySats b c o.workExp }))

/-- One PROBE entry on each of some batches. -/
def Dev.probeEach (d : Dev) (tag : Nat) (right : Option DBatch) (o : ColOp) (cs : List ColOp) :
    List DBatch → ColCnt → ColCnt × Option (List DBatch)
  | [], n => (n, some [])
  | b :: r, n =>
    match d.probeEntry tag right b o cs with
    | none => (n, none)
    | some (bs, k) =>
      let (n, rest) := d.probeEach tag right o cs r (n.add k)
      (n, rest.map (bs ++ ·))

/-- The PROBE entries of a task in entry order, each on the batches that the one before it put out. -/
def Dev.probeEntries (d : Dev) (tag : Nat) (right : Option DBatch) :
    List (ColOp × List ColOp) → List DBatch → ColCnt → ColCnt × Option (List DBatch)
  | [], bs, n => (n, some bs)
  | (o, cs) :: r, bs, n =>
    match d.probeEach tag right o cs bs n with
    | (n, none) => (n, none)
    | (n, some bs) => d.probeEntries tag right r bs n

/-- JOIN_PROBE_TASK (R233 to R236). -/
def Dev.probeTask (d : Dev) (s : Nat) : Dev :=
  match d.atWork s 7 with
  | none => d
  | some (q, t) =>
    let es := codeOps 0x41 (colOps t.params)
    let tag := t.tag.toNat
    let ids := (es.filter (fun e => e.1.mode % 4 != 1)).map (fun e => joinId e.1)
    if ids.any (fun i => !d.buildSealed i tag (d.joinPerTag i)) then d
    else if ids.any (fun i => (d.joinTab i (tabKey (d.joinPerTag i) tag)).broken) then d.colFull s q t.uid {}
    else
      let (e, data) := d.operandData t 0
      let (e, right) := if es.any (fun x => x.1.mode % 4 == 1) then e.operandData t 1 else (e, some [])
      match data, right with
      | some raw, some rraw =>
        match d.inputBatch t.params raw with
        | none => e.colFormat s q t.uid {}
        | some b => match d.probeEntries tag (d.inputBatch t.params rraw) es [b] {} with
          | (n, none) => e.colFormat s q t.uid n
          | (n, some bs) => d.colOut e s q t.uid t.params n (bs.map (·.bytes))
      | _, _ => e.workFail q t.uid .eccUncorrectable

/-! Sequences (R240 to R242) -/

/-- Bytes of a position record's carried part. -/
def seqRB (b : DBatch) (cs : List ColOp) : Nat := upTo (carryBytes b cs) 8

def seqCarried (b : DBatch) (cs : List ColOp) (i : Nat) : Bytes :=
  cs.flatMap (fun o => match b.col o.inA with
    | some c => (c.val b.samples i).getD (zeros c.width)
    | none => [])

/-- CARRY entries in the order their OUT gives. -/
def seqOrder (cs : List ColOp) : List ColOp := sortBy (fun a b => a.out ≤ b.out) cs

/-- Put an event in its place: ascending time, equal times in ascending ordinal. -/
def seqInsert (e : SeqEvent) (l : List SeqEvent) : List SeqEvent :=
  insertBy (fun a b => a.time < b.time || (a.time == b.time && a.ord ≤ b.ord)) e l

/-- Commit an event to a history (R241): the history after, whether the event was dropped. -/
def seqCommit (limit window : Nat) (l : List SeqEvent) (e : SeqEvent) : List SeqEvent × Bool :=
  let l' := seqInsert e l
  if limit < l'.length ∧ l'.head? = some e then (l, true)
  else
    let l' := if limit < l'.length then l'.drop 1 else l'
    let newest := (l'.getLast?.map (·.time)).getD 0
    (if window = 0 then l' else l'.filter (fun x => newest ≤ x.time + window), false)

/-- A sequence's bytes (R242). -/
def seqBytes (key tag limit : Nat) (fixed repeat_ : Bool) (rb : Nat) (l : List SeqEvent) : Bytes :=
  let n := l.length
  let positions := if fixed then limit else n
  let pads := positions - n
  let pos (time : Nat) (flags : Nat) (c : Bytes) : Bytes := leB 8 time ++ leB 2 flags ++ zeros 6 ++ padTo rb c
  let pad := match repeat_, l.head? with
    | true, some e => pos e.time 3 e.carried
    | true, none => pos 0 3 []
    | false, _ => pos 0 1 []
  leB 8 key ++ leB 8 tag ++ leB 4 n ++ leB 4 positions ++ leB 4 pads ++ zeros 4
    ++ (List.replicate pads pad).flatten ++ l.flatMap (fun e => pos e.time 0 e.carried)

/-- Pack sequences into slots in order. -/
def packSlots (slotB : Nat) : List Bytes → Bytes → List Bytes
  | [], acc => if acc.isEmpty then [] else [acc]
  | s :: t, acc =>
    if slotB < acc.length + s.length ∧ !acc.isEmpty then acc :: packSlots slotB t s else packSlots slotB t (acc ++ s)

/-- The events of a history up to one of them, in sorted order (R242). -/
def seqUpTo (e : SeqEvent) (l : List SeqEvent) : List SeqEvent :=
  l.filter (fun x => x.time < e.time || (x.time == e.time && x.ord ≤ e.ord))

/-- What committing a task's events gives: the state after, histories of keys that are not stored, per committed event its
key and its history up to it, events dropped and keys not stored. -/
structure SeqRun where
  st : SeqSt
  loose : List (Nat × List SeqEvent) := []
  trail : List (Nat × List SeqEvent) := []
  order : List Nat := []
  lost : Nat := 0
  deriving DecidableEq, Repr, Inhabited

/-- Commit one event (R241). -/
def SeqRun.event (r : SeqRun) (limit window cap key time : Nat) (c : Bytes) : SeqRun :=
  let e : SeqEvent := { time, ord := r.st.next, carried := c }
  let st := { r.st with next := r.st.next + 1 }
  let order := if r.order.contains key then r.order else r.order ++ [key]
  match st.keys.find? (fun k => k.1 == key), r.loose.find? (fun k => k.1 == key) with
  | some (_, l), _ =>
    let (l', drop) := seqCommit limit window l e
    { r with st := { st with keys := st.keys.map (fun k => if k.1 = key then (key, l') else k) }, order
             trail := if drop then r.trail else r.trail ++ [(key, seqUpTo e l')], lost := r.lost + b2n drop }
  | none, some (_, l) =>
    let (l', drop) := seqCommit limit window l e
    { r with st, order, loose := r.loose.map (fun k => if k.1 = key then (key, l') else k)
             trail := if drop then r.trail else r.trail ++ [(key, seqUpTo e l')], lost := r.lost + b2n drop }
  | none, none =>
    if st.keys.length < cap then
      { r with st := { st with keys := st.keys ++ [(key, [e])] }, order, trail := r.trail ++ [(key, [e])] }
    else { r with st, order, loose := r.loose ++ [(key, [e])], trail := r.trail ++ [(key, [e])], lost := r.lost + 1 }

/-- The history of a key after a run. -/
def SeqRun.history (r : SeqRun) (key : Nat) : List SeqEvent :=
  match r.st.keys.find? (fun k => k.1 == key) with
  | some k => k.2
  | none => ((r.loose.find? (fun k => k.1 == key)).map (·.2)).getD []

/-- Histories of the n-th SEQ entry of a block with a STATE_ALLOC: each entry has its own (DESIGN CHOICE, log entry 99). -/
def seqKey (alloc n : Nat) : Nat := alloc + 2 ^ 32 * n

/-- One SEQ entry on a task's batch: the histories after it, its sequences and its counts; none is FORMAT. -/
def seqEntry (st : SeqSt) (tag : Nat) (b : DBatch) (o : ColOp) (cs : List ColOp) : Option (SeqSt × List Bytes × ColCnt) :=
  match b.col o.inA, b.col o.inB with
  | some kc, some tc =>
    if !kc.flat b.samples || !kc.numeric || !tc.flat b.samples || tc.type != 8 || !carryOk b cs then none
    else
      let limit := bits o.p0 22 0
      let cs := seqOrder cs
      let run := (List.range b.samples).foldl (fun (r : SeqRun) i =>
        if !b.valid.getD i false then r
        else match kc.work b.samples o.workExp i, tc.val b.samples i with
          | some w, some tm =>
            r.event limit (Machine.tc 64 o.p1) (Machine.tc 64 o.p2) (Machine.tc 64 w.1) (ofLe tm) (seqCarried b cs i)
          | _, _ => r) { st }
      let one (k : Nat) (l : List SeqEvent) : Bytes :=
        seqBytes k tag limit (bit o.p0 24) (bit o.p0 25) (seqRB b cs) (l.drop (l.length - limit))
      some (run.st, if bit o.p0 26 then run.trail.map (fun x => one x.1 x.2) else run.order.map (fun k => one k (run.history k)),
        { sat := (b.works kc o.workExp).2, ovf := run.lost })
  | _, _ => none

/-- The SEQ entries of a task in entry order. -/
def seqEntries (alloc tag : Nat) (b : DBatch) :
    Nat → List (ColOp × List ColOp) → Tbl SeqSt → List Bytes → ColCnt → ColCnt × Option (Tbl SeqSt × List Bytes)
  | _, [], seqs, out, n => (n, some (seqs, out))
  | i, (o, cs) :: r, seqs, out, n =>
    match seqEntry (tget {} seqs (seqKey alloc i)) tag b o cs with
    | none => (n, none)
    | some (st, l, k) => seqEntries alloc tag b (i + 1) r (tput seqs (seqKey alloc i) st) (out ++ l) (n.add k)

/-- SEQUENCE_TASK (R240 to R242). -/
def Dev.sequenceTask (d : Dev) (s : Nat) : Dev :=
  match d.atWork s 8 with
  | none => d
  | some (q, t) =>
    if d.laneBefore q t then d
    else
      let (e, data) := d.operandData t 0
      match data with
      | none => e.workFail q t.uid .eccUncorrectable
      | some raw => match d.inputBatch t.params raw with
        | none => e.colFormat s q t.uid {}
        | some b => match seqEntries (fld t.params 16 4) t.tag.toNat b 0 (codeOps 0x60 (colOps t.params)) d.seqs [] {} with
          | (n, none) => e.colFormat s q t.uid n
          | (n, some (seqs, out)) =>
            let e := { e with seqs }
            let slotB := fld t.params 8 4
            if out.any (fun x => slotB < x.length) then e.colFull s q t.uid n
            else d.colOut e s q t.uid t.params n (packSlots slotB out [])

end Sys2Proof.Machine
end

