-- ==== Sys2Proof/Machine/SeatCmds.lean ====
section
/-! DEFINITION. The commands of seat work: columns, joins, tensors, matrices, embeddings, selection (R208 to R329). One definition per row
of the table; what an event does not apply to leaves the state as it is. -/
namespace Sys2Proof.Machine

/-- FILTER_TASK (R210). -/
def execFilterTask (seat : Seat) (s : State) : Host.Outcome State Fault Refusal := .next (s.onDev (fun d => d.colTask seat.val 2))
/-- HASH_TASK (R222). -/
def execHashTask (seat : Seat) (s : State) : Host.Outcome State Fault Refusal := .next (s.onDev (fun d => d.colTask seat.val 3))
/-- BUCKET_TASK (R210). -/
def execBucketTask (seat : Seat) (s : State) : Host.Outcome State Fault Refusal := .next (s.onDev (fun d => d.colTask seat.val 4))
/-- NORM_TASK (R210). -/
def execNormTask (seat : Seat) (s : State) : Host.Outcome State Fault Refusal := .next (s.onDev (fun d => d.colTask seat.val 5))
/-- JOIN_BUILD_TASK (R232). -/
def execJoinBuildTask (seat : Seat) (s : State) : Host.Outcome State Fault Refusal :=
  .next (s.onDev (fun d => d.buildTask seat.val))
/-- JOIN_PROBE_TASK (R233). -/
def execJoinProbeTask (seat : Seat) (s : State) : Host.Outcome State Fault Refusal :=
  .next (s.onDev (fun d => d.probeTask seat.val))
/-- SEQUENCE_TASK (R241). -/
def execSequenceTask (seat : Seat) (s : State) : Host.Outcome State Fault Refusal :=
  .next (s.onDev (fun d => d.sequenceTask seat.val))
/-- MOVE_TASK (R256). -/
def execMoveTask (seat : Seat) (s : State) : Host.Outcome State Fault Refusal := .next (s.onDev (fun d => d.moveTask seat.val))
/-- MATRIX_TASK (R274). -/
def execMatrixTask (seat : Seat) (s : State) : Host.Outcome State Fault Refusal :=
  .next (s.onDev (fun d => d.matrixTask seat.val))
/-- MATRIX_STORE_END (R285). -/
def execMatrixStoreEnd (seat : Seat) (s : State) : Host.Outcome State Fault Refusal :=
  .next (s.onDev (fun d => d.matrixStoreEnd seat.val))
/-- GATHER_TASK (R295). -/
def execGatherTask (seat : Seat) (s : State) : Host.Outcome State Fault Refusal :=
  .next (s.onDev (fun d => if 1152 ≤ seat.val then d.gatherTask (seat.val - 1152) else d))
/-- READ_REQ (R298). -/
def execReadReq (s : State) : Host.Outcome State Fault Refusal := .next (s.onDev (fun d => d.readReq))
/-- READ_RSP (R382). -/
def execReadRsp (s : State) : Host.Outcome State Fault Refusal := .next (s.onDev (fun d => d.readRsp))
/-- SCATTER_TASK (R304). -/
def execScatterTask (seat : Seat) (s : State) : Host.Outcome State Fault Refusal :=
  .next (s.onDev (fun d => if 1152 ≤ seat.val then d.scatterTask (seat.val - 1152) else d))
/-- UPDATE_APPLY (R306). -/
def execUpdateApply (table : BitVec 16) (s : State) : Host.Outcome State Fault Refusal :=
  .next (s.onDev (fun d => d.updateApply table.toNat))
/-- REPLICA_REFRESH_END (R300). -/
def execReplicaRefreshEnd (group : BitVec 8) (s : State) : Host.Outcome State Fault Refusal :=
  .next (s.onDev (fun d => d.refreshEnd group.toNat))
/-- SELECT_TASK (R314). -/
def execSelectTask (seat : Seat) (s : State) : Host.Outcome State Fault Refusal :=
  .next (s.onDev (fun d => d.selectTask seat.val))

end Sys2Proof.Machine
end

