-- ==== Sys2Proof/Machine/StatCmds.lean ====
section
/-! DEFINITION. The commands of emission, statistics and attendance (R35 to R47, R100 to R102, R409). One definition per row
of the table; what an event does not apply to leaves the state as it is. -/
namespace Sys2Proof.Machine

/-- A unit is told that a tag's last record has passed; a stream without columns there has no tags. -/
def Dev.tagSeal (d : Dev) (unit stream : Nat) (tag : Tag) : Dev :=
  if (d.fbCols unit stream).isEmpty then d else (d.tagPassed unit stream tag).promoteAll

/-- The loads of the attendance banks end, and COPYING with them (R102). -/
def Dev.copyEnd (d : Dev) : Dev := { d with att := { d.att with shadowLoad := none, snapLoad := none } }

/-- Seal the aborted tags that no earlier open tag keeps. -/
def Dev.abortSeal (d : Dev) (unit stream : Nat) : Dev :=
  let x := d.fbTags unit stream
  if x.aborted.isEmpty then d else (sealAll unit stream (x.opened.length + x.aborted.length) d).promoteAll

/-- ENCODE_TASK (R40). -/
def execEncodeTask (seat : Seat) (s : State) : Host.Outcome State Fault Refusal :=
  .next (s.onDev (fun d => d.encodeTask seat.val))
/-- EMISSION_END (R41). -/
def execEmissionEnd (stream : Fin 64) (s : State) : Host.Outcome State Fault Refusal :=
  .next (s.onDev (fun d => d.emissionEnd stream.val))
/-- STATS_OBSERVE (R43). -/
def execStatsObserve (unit : ClusterIx) (s : State) : Host.Outcome State Fault Refusal :=
  .next (s.onDev (fun d => d.statsTask unit.val))
/-- TAG_SEAL (R45). -/
def execTagSeal (unit : ClusterIx) (stream : Fin 64) (tag : Tag) (s : State) : Host.Outcome State Fault Refusal :=
  .next (s.onDev (fun d => d.tagSeal unit.val stream.val tag))
/-- SNAPSHOT_COPY_END (R102). -/
def execSnapshotCopyEnd (s : State) : Host.Outcome State Fault Refusal := .next (s.onDev (fun d => d.copyEnd))
/-- ATT_SNAP (R102). -/
def execAttSnap (m : Master) (v : Word) (s : State) : Host.Outcome State Fault Refusal := .next (s.write m (ATT + 0x20) v)
/-- ABORT_SEAL (R409). -/
def execAbortSeal (unit : ClusterIx) (stream : Fin 64) (s : State) : Host.Outcome State Fault Refusal :=
  .next (s.onDev (fun d => d.abortSeal unit.val stream.val))

end Sys2Proof.Machine
end

