-- ==== Sys2Proof/Machine/TutorCmds.lean ====
section
/-! DEFINITION. The commands of tutor control (R106, R110, R111). One definition per row
of the table; what an event does not apply to leaves the state as it is. -/
namespace Sys2Proof.Machine

/-- The count of a SETTMR reaches zero. -/
def Dev.tutorTimer (d : Dev) (t : Nat) : Dev :=
  match (d.tutor t).timer with
  | some at_ => if at_ ≤ d.now then (d.setTutor t { d.tutor t with timer := none }).raise t 1 else d
  | none => d

/-- A running tutor has spent its budget. -/
def Dev.budgetFault (d : Dev) (t : Nat) : Dev :=
  if (d.tutor t).mode = .running ∧ d.budget t < (d.tutor t).spent then d.tutorFault t 5 else d

/-- TUTOR_RUN (R111): a write of _TUT_CTL. -/
def execTutorRun (m : Master) (t : TutorIx) (v : Word) (s : State) : Host.Outcome State Fault Refusal :=
  .next (s.write m (tutorRegs t.val) v)
/-- TUTOR_CLR_FAULT (R111): a write of _TUT_CTL. -/
def execTutorClrFault (m : Master) (t : TutorIx) (v : Word) (s : State) : Host.Outcome State Fault Refusal :=
  .next (s.write m (tutorRegs t.val) v)
/-- TUTOR_TIMER (R106). -/
def execTutorTimer (t : TutorIx) (s : State) : Host.Outcome State Fault Refusal := .next (s.onDev (fun d => d.tutorTimer t.val))
/-- TUTOR_BUDGET_FAULT (R110). -/
def execTutorBudgetFault (t : TutorIx) (s : State) : Host.Outcome State Fault Refusal :=
  .next (s.onDev (fun d => d.budgetFault t.val))
/-- TUTOR_WAKE (R106). -/
def execTutorWake (t : TutorIx) (s : State) : Host.Outcome State Fault Refusal := .next (s.onDev (fun d => d.wake t.val))

end Sys2Proof.Machine
end

