-- ==== Sys2Proof/Machine/Dispatch.lean ====
section
/-! DEFINITION. The dispatch: one arm per constructor of Instr, each one direct call of its meaning. -/
namespace Sys2Proof.Machine

def exec (i : Instr) (s : State) : Host.Outcome State Fault Refusal :=
  match i with
  | .stepInEdge falling => Sys2Proof.Machine.execStepInEdge falling s
  | .auxInEdge falling => Sys2Proof.Machine.execAuxInEdge falling s
  | .phtBellDb m v => Sys2Proof.Machine.execPhtBellDb m v s
  | .bellFlit port origin count => Sys2Proof.Machine.execBellFlit port origin count s
  | .lockWindowExpiry => Sys2Proof.Machine.execLockWindowExpiry s
  | .holdLimitExpiry => Sys2Proof.Machine.execHoldLimitExpiry s
  | .phtEnable m v => Sys2Proof.Machine.execPhtEnable m v s
  | .phtDisable m v => Sys2Proof.Machine.execPhtDisable m v s
  | .gpioEdge pin falling => Sys2Proof.Machine.execGpioEdge pin falling s
  | .auxCapTbRead m => Sys2Proof.Machine.execAuxCapTbRead m s
  | .loRead m bar2 addr width => Sys2Proof.Machine.execLoRead m bar2 addr width s
  | .ttbEntryArm m n v => Sys2Proof.Machine.execTtbEntryArm m n v s
  | .ttbEntryDisarm m n v => Sys2Proof.Machine.execTtbEntryDisarm m n v s
  | .ttbEnable m v => Sys2Proof.Machine.execTtbEnable m v s
  | .ttbEntryFire n => Sys2Proof.Machine.execTtbEntryFire n s
  | .encodeTask seat => Sys2Proof.Machine.execEncodeTask seat s
  | .emissionEnd stream => Sys2Proof.Machine.execEmissionEnd stream s
  | .statsObserve unit => Sys2Proof.Machine.execStatsObserve unit s
  | .tagSeal unit stream tag => Sys2Proof.Machine.execTagSeal unit stream tag s
  | .snapshotCopyEnd => Sys2Proof.Machine.execSnapshotCopyEnd s
  | .attSnap m v => Sys2Proof.Machine.execAttSnap m v s
  | .platLoad data => Sys2Proof.Machine.execPlatLoad data s
  | .seatingComplete => Sys2Proof.Machine.execSeatingComplete s
  | .holdSwitchClear m v => Sys2Proof.Machine.execHoldSwitchClear m v s
  | .reseatOpen seat => Sys2Proof.Machine.execReseatOpen seat s
  | .taskPacket q port k => Sys2Proof.Machine.execTaskPacket q port k s
  | .heldPacketAdmit q port => Sys2Proof.Machine.execHeldPacketAdmit q port s
  | .taskDispatch q => Sys2Proof.Machine.execTaskDispatch q s
  | .agePromote q index => Sys2Proof.Machine.execAgePromote q index s
  | .taskComplete seat e => Sys2Proof.Machine.execTaskComplete seat e s
  | .resultRelease q => Sys2Proof.Machine.execResultRelease q s
  | .lafPost q => Sys2Proof.Machine.execLafPost q s
  | .tutorRun m t v => Sys2Proof.Machine.execTutorRun m t v s
  | .tutorClrFault m t v => Sys2Proof.Machine.execTutorClrFault m t v s
  | .tutorTimer t => Sys2Proof.Machine.execTutorTimer t s
  | .tutorBudgetFault t => Sys2Proof.Machine.execTutorBudgetFault t s
  | .tutorWake t => Sys2Proof.Machine.execTutorWake t s
  | .add t rd ra rb => Sys2Proof.Machine.execAdd t rd ra rb s
  | .sub t rd ra rb => Sys2Proof.Machine.execSub t rd ra rb s
  | .and t rd ra rb => Sys2Proof.Machine.execAnd t rd ra rb s
  | .or t rd ra rb => Sys2Proof.Machine.execOr t rd ra rb s
  | .xor t rd ra rb => Sys2Proof.Machine.execXor t rd ra rb s
  | .sll t rd ra rb => Sys2Proof.Machine.execSll t rd ra rb s
  | .srl t rd ra rb => Sys2Proof.Machine.execSrl t rd ra rb s
  | .sra t rd ra rb => Sys2Proof.Machine.execSra t rd ra rb s
  | .slt t rd ra rb => Sys2Proof.Machine.execSlt t rd ra rb s
  | .sltu t rd ra rb => Sys2Proof.Machine.execSltu t rd ra rb s
  | .mul t rd ra rb => Sys2Proof.Machine.execMul t rd ra rb s
  | .mulh t rd ra rb => Sys2Proof.Machine.execMulh t rd ra rb s
  | .mulhu t rd ra rb => Sys2Proof.Machine.execMulhu t rd ra rb s
  | .clz t rd ra => Sys2Proof.Machine.execClz t rd ra s
  | .crc32c t rd ra rb => Sys2Proof.Machine.execCrc32c t rd ra rb s
  | .crcb t rd ra rb => Sys2Proof.Machine.execCrcb t rd ra rb s
  | .mix64 t rd ra => Sys2Proof.Machine.execMix64 t rd ra s
  | .reduce t rd ra rb => Sys2Proof.Machine.execReduce t rd ra rb s
  | .addi t rd ra imm => Sys2Proof.Machine.execAddi t rd ra imm s
  | .andi t rd ra imm => Sys2Proof.Machine.execAndi t rd ra imm s
  | .ori t rd ra imm => Sys2Proof.Machine.execOri t rd ra imm s
  | .slli t rd ra imm => Sys2Proof.Machine.execSlli t rd ra imm s
  | .srli t rd ra imm => Sys2Proof.Machine.execSrli t rd ra imm s
  | .srai t rd ra imm => Sys2Proof.Machine.execSrai t rd ra imm s
  | .lui t rd imm => Sys2Proof.Machine.execLui t rd imm s
  | .lw t rd ra imm => Sys2Proof.Machine.execLw t rd ra imm s
  | .lbu t rd ra imm => Sys2Proof.Machine.execLbu t rd ra imm s
  | .sw t rd ra imm => Sys2Proof.Machine.execSw t rd ra imm s
  | .sb t rd ra imm => Sys2Proof.Machine.execSb t rd ra imm s
  | .jalr t rd ra imm => Sys2Proof.Machine.execJalr t rd ra imm s
  | .beq t ra rb off => Sys2Proof.Machine.execBeq t ra rb off s
  | .bne t ra rb off => Sys2Proof.Machine.execBne t ra rb off s
  | .blt t ra rb off => Sys2Proof.Machine.execBlt t ra rb off s
  | .bge t ra rb off => Sys2Proof.Machine.execBge t ra rb off s
  | .bltu t ra rb off => Sys2Proof.Machine.execBltu t ra rb off s
  | .bgeu t ra rb off => Sys2Proof.Machine.execBgeu t ra rb off s
  | .loop t ra off => Sys2Proof.Machine.execLoop t ra off s
  | .j t off => Sys2Proof.Machine.execJ t off s
  | .call t off => Sys2Proof.Machine.execCall t off s
  | .send t r rt queue => Sys2Proof.Machine.execSend t r rt queue s
  | .sendTask t r => Sys2Proof.Machine.execSendTask t r s
  | .sendCancel t r => Sys2Proof.Machine.execSendCancel t r s
  | .sendResub t r => Sys2Proof.Machine.execSendResub t r s
  | .sendRingpost t r => Sys2Proof.Machine.execSendRingpost t r s
  | .sendGo t r => Sys2Proof.Machine.execSendGo t r s
  | .sendnb t r rt queue st => Sys2Proof.Machine.execSendnb t r rt queue st s
  | .recv t r queue => Sys2Proof.Machine.execRecv t r queue s
  | .recvLaf t r => Sys2Proof.Machine.execRecvLaf t r s
  | .recvnb t r queue st => Sys2Proof.Machine.execRecvnb t r queue st s
  | .qcnt t r queue => Sys2Proof.Machine.execQcnt t r queue s
  | .wait t rd ra => Sys2Proof.Machine.execWait t rd ra s
  | .sig t ra imm => Sys2Proof.Machine.execSig t ra imm s
  | .settmr t ra => Sys2Proof.Machine.execSettmr t ra s
  | .rdstep t rd imm => Sys2Proof.Machine.execRdstep t rd imm s
  | .fence t => Sys2Proof.Machine.execFence t s
  | .halt t => Sys2Proof.Machine.execHalt t s
  | .registerWrite m addr width v => Sys2Proof.Machine.execRegisterWrite m addr width v s
  | .bitAliasWrite m addr width v => Sys2Proof.Machine.execBitAliasWrite m addr width v s
  | .apertureWrite offset data => Sys2Proof.Machine.execApertureWrite offset data s
  | .bar4Access write offset length data => Sys2Proof.Machine.execBar4Access write offset length data s
  | .tileCounterClear m tile v => Sys2Proof.Machine.execTileCounterClear m tile v s
  | .tileInject m tile v => Sys2Proof.Machine.execTileInject m tile v s
  | .cluClear m c v => Sys2Proof.Machine.execCluClear m c v s
  | .cluStatClear m c v => Sys2Proof.Machine.execCluStatClear m c v s
  | .tilColClear m tile v => Sys2Proof.Machine.execTilColClear m tile v s
  | .tilMxClear m tile v => Sys2Proof.Machine.execTilMxClear m tile v s
  | .selClear m tile v => Sys2Proof.Machine.execSelClear m tile v s
  | .gthClear m c v => Sys2Proof.Machine.execGthClear m c v s
  | .replDisable m c v => Sys2Proof.Machine.execReplDisable m c v s
  | .cmpClear m q v => Sys2Proof.Machine.execCmpClear m q v s
  | .memTdClear m v => Sys2Proof.Machine.execMemTdClear m v s
  | .memErrClear m v => Sys2Proof.Machine.execMemErrClear m v s
  | .ringEnable m n v => Sys2Proof.Machine.execRingEnable m n v s
  | .ringDisable m n v => Sys2Proof.Machine.execRingDisable m n v s
  | .doorbell offset width v => Sys2Proof.Machine.execDoorbell offset width v s
  | .descriptorFetch data => Sys2Proof.Machine.execDescriptorFetch data s
  | .copyIn n data => Sys2Proof.Machine.execCopyIn n data s
  | .inPlace n => Sys2Proof.Machine.execInPlace n s
  | .rxBuffer n => Sys2Proof.Machine.execRxBuffer n s
  | .cmpJob n => Sys2Proof.Machine.execCmpJob n s
  | .nop => Sys2Proof.Machine.execNop s
  | .allocAdd => Sys2Proof.Machine.execAllocAdd s
  | .allocFree => Sys2Proof.Machine.execAllocFree s
  | .tdescCreate data => Sys2Proof.Machine.execTdescCreate data s
  | .tdescDestroy => Sys2Proof.Machine.execTdescDestroy s
  | .tdescRemove slot => Sys2Proof.Machine.execTdescRemove slot s
  | .fragApply => Sys2Proof.Machine.execFragApply s
  | .fragWithdraw => Sys2Proof.Machine.execFragWithdraw s
  | .taskInject => Sys2Proof.Machine.execTaskInject s
  | .cancel => Sys2Proof.Machine.execCancel s
  | .completionPost n => Sys2Proof.Machine.execCompletionPost n s
  | .eventPost n => Sys2Proof.Machine.execEventPost n s
  | .irqTimer n => Sys2Proof.Machine.execIrqTimer n s
  | .msixUnmask vector => Sys2Proof.Machine.execMsixUnmask vector s
  | .rxDelivery n => Sys2Proof.Machine.execRxDelivery n s
  | .hostLinkReset e => Sys2Proof.Machine.execHostLinkReset e s
  | .perst low => Sys2Proof.Machine.execPerst low s
  | .decodeTask seat => Sys2Proof.Machine.execDecodeTask seat s
  | .assistTimeout c ticket => Sys2Proof.Machine.execAssistTimeout c ticket s
  | .replayBatchSend c => Sys2Proof.Machine.execReplayBatchSend c s
  | .windowSwap c => Sys2Proof.Machine.execWindowSwap c s
  | .cmdSwap m c v => Sys2Proof.Machine.execCmdSwap m c v s
  | .cmdTermAdvance m c v => Sys2Proof.Machine.execCmdTermAdvance m c v s
  | .ethFrame p f => Sys2Proof.Machine.execEthFrame p f s
  | .pfcFrame p => Sys2Proof.Machine.execPfcFrame p s
  | .addressRequest p => Sys2Proof.Machine.execAddressRequest p s
  | .streamFrame p => Sys2Proof.Machine.execStreamFrame p s
  | .blockClose g => Sys2Proof.Machine.execBlockClose g s
  | .streamIdle n => Sys2Proof.Machine.execStreamIdle n s
  | .pfcRepeat g => Sys2Proof.Machine.execPfcRepeat g s
  | .spillDrain g => Sys2Proof.Machine.execSpillDrain g s
  | .rocePacket p => Sys2Proof.Machine.execRocePacket p s
  | .lookupRequest p => Sys2Proof.Machine.execLookupRequest p s
  | .lookupResponse p => Sys2Proof.Machine.execLookupResponse p s
  | .lookupTimeout p slot => Sys2Proof.Machine.execLookupTimeout p slot s
  | .filterTask seat => Sys2Proof.Machine.execFilterTask seat s
  | .hashTask seat => Sys2Proof.Machine.execHashTask seat s
  | .bucketTask seat => Sys2Proof.Machine.execBucketTask seat s
  | .normTask seat => Sys2Proof.Machine.execNormTask seat s
  | .joinBuildTask seat => Sys2Proof.Machine.execJoinBuildTask seat s
  | .joinProbeTask seat => Sys2Proof.Machine.execJoinProbeTask seat s
  | .sequenceTask seat => Sys2Proof.Machine.execSequenceTask seat s
  | .moveTask seat => Sys2Proof.Machine.execMoveTask seat s
  | .matrixTask seat => Sys2Proof.Machine.execMatrixTask seat s
  | .matrixStoreEnd seat => Sys2Proof.Machine.execMatrixStoreEnd seat s
  | .gatherTask seat => Sys2Proof.Machine.execGatherTask seat s
  | .readReq => Sys2Proof.Machine.execReadReq s
  | .readRsp => Sys2Proof.Machine.execReadRsp s
  | .scatterTask seat => Sys2Proof.Machine.execScatterTask seat s
  | .updateApply table => Sys2Proof.Machine.execUpdateApply table s
  | .replicaRefreshEnd group => Sys2Proof.Machine.execReplicaRefreshEnd group s
  | .selectTask seat => Sys2Proof.Machine.execSelectTask seat s
  | .cmpJobStart q pack => Sys2Proof.Machine.execCmpJobStart q pack s
  | .cmpJobEnd q pack => Sys2Proof.Machine.execCmpJobEnd q pack s
  | .cmpSubmitGo m q v => Sys2Proof.Machine.execCmpSubmitGo m q v s
  | .dramRefresh ch => Sys2Proof.Machine.execDramRefresh ch s
  | .scrubRead ch found => Sys2Proof.Machine.execScrubRead ch found s
  | .linkSignalDetect p => Sys2Proof.Machine.execLinkSignalDetect p s
  | .linkSignalLoss p => Sys2Proof.Machine.execLinkSignalLoss p s
  | .trainingTimeout p => Sys2Proof.Machine.execTrainingTimeout p s
  | .trainingFrame p lane marks control => Sys2Proof.Machine.execTrainingFrame p lane marks control s
  | .prbsTestEnd p errors => Sys2Proof.Machine.execPrbsTestEnd p errors s
  | .paramRecord p record => Sys2Proof.Machine.execParamRecord p record s
  | .portRetrain m p v => Sys2Proof.Machine.execPortRetrain m p v s
  | .flitGroup p decodes gseq ack kind flits => Sys2Proof.Machine.execFlitGroup p decodes gseq ack kind flits s
  | .nakRepeat p => Sys2Proof.Machine.execNakRepeat p s
  | .flitForward => Sys2Proof.Machine.execFlitForward s
  | .taskMessage => Sys2Proof.Machine.execTaskMessage s
  | .ack => Sys2Proof.Machine.execAck s
  | .fenceFlit src gen => Sys2Proof.Machine.execFenceFlit src gen s
  | .fenceTimeout src => Sys2Proof.Machine.execFenceTimeout src s
  | .requestTimeout msg => Sys2Proof.Machine.execRequestTimeout msg s
  | .ringFlit port origin seq payload => Sys2Proof.Machine.execRingFlit port origin seq payload s
  | .stDataWrite m p v => Sys2Proof.Machine.execStDataWrite m p v s
  | .tableCommit m p v => Sys2Proof.Machine.execTableCommit m p v s
  | .shuntChange column closed => Sys2Proof.Machine.execShuntChange column closed s
  | .faultOccurrence source unit detail addr => Sys2Proof.Machine.execFaultOccurrence source unit detail addr s
  | .graceExpiry => Sys2Proof.Machine.execGraceExpiry s
  | .fltAck m v => Sys2Proof.Machine.execFltAck m v s
  | .resume m v => Sys2Proof.Machine.execResume m v s
  | .tileFail tile detail addr => Sys2Proof.Machine.execTileFail tile detail addr s
  | .abortSeal unit stream => Sys2Proof.Machine.execAbortSeal unit stream s
  | .powerInputRise mV => Sys2Proof.Machine.execPowerInputRise mV s
  | .powerInputFall mV => Sys2Proof.Machine.execPowerInputFall mV s
  | .powerGood => Sys2Proof.Machine.execPowerGood s
  | .powerGoodTimeout => Sys2Proof.Machine.execPowerGoodTimeout s
  | .modResetPin low => Sys2Proof.Machine.execModResetPin low s
  | .ctkReset m v => Sys2Proof.Machine.execCtkReset m v s
  | .bootStageEnd f => Sys2Proof.Machine.execBootStageEnd f s
  | .bootStageFail overrun => Sys2Proof.Machine.execBootStageFail overrun s
  | .getCert mb len writable => Sys2Proof.Machine.execGetCert mb len writable s
  | .attest mb data => Sys2Proof.Machine.execAttest mb data s
  | .fwUpdate data => Sys2Proof.Machine.execFwUpdate data s
  | .fwCommitSvn => Sys2Proof.Machine.execFwCommitSvn s
  | .enrollKey data => Sys2Proof.Machine.execEnrollKey data s
  | .revokeKey data => Sys2Proof.Machine.execRevokeKey data s
  | .setConfig mb data => Sys2Proof.Machine.execSetConfig mb data s
  | .moduleReset mb => Sys2Proof.Machine.execModuleReset mb s
  | .thermalEval die0 die1 => Sys2Proof.Machine.execThermalEval die0 die1 s
  | .powerCapEval meanPower => Sys2Proof.Machine.execPowerCapEval meanPower s
  | .telemetryRefresh t => Sys2Proof.Machine.execTelemetryRefresh t s
  | .osfpPoll p medium healthy => Sys2Proof.Machine.execOsfpPoll p medium healthy s
  | .pinRoleGrant => Sys2Proof.Machine.execPinRoleGrant s
  | .gpioPulseEnd pin => Sys2Proof.Machine.execGpioPulseEnd pin s
  | .stepOutPulseEnd => Sys2Proof.Machine.execStepOutPulseEnd s
  | .ethLinkChg p up => Sys2Proof.Machine.execEthLinkChg p up s
  | .pfcRxPauseEnd p pri => Sys2Proof.Machine.execPfcRxPauseEnd p pri s
  | .aliveToggle => Sys2Proof.Machine.execAliveToggle s
  | .powerStageRetry => Sys2Proof.Machine.execPowerStageRetry s

end Sys2Proof.Machine
end

