-- ==== Sys2Proof/Machine/Step.lean ====
section
/-! DEFINITION. One step of the block: the command at the front of the queue, or one timebase cycle on an empty queue. -/
namespace Sys2Proof.Machine

/-- One timebase cycle passes (R22); the quadrant core makes 4.25 × (16 − S) / 16 cycles in it (R20, R433). Time stands
still while the module is in reset or without power. -/
def State.tick (s : State) : State :=
  if s.running then s.setDev (fun d => d.cycle s.care.run.s) else s

/-- One step: exec of the front command on the state with the rest of the queue; a tick where none waits (log entry 7). -/
def step (s : State) : Host.Outcome State Fault Refusal :=
  match s.pending with
  | [] => .next s.tick
  | c :: rest => exec c { s with pending := rest }

/-- s with the command that a word spells at the front of its queue; s itself where the word spells none. -/
def State.withFetchWord (s : State) (nbits w : Nat) : State :=
  match decodeTableWord nbits w with
  | some c => { s with pending := c :: s.pending }
  | none => s

end Sys2Proof.Machine
end

