-- ==== Sys2Proof/Machine/RingManager.lean ====
section
/-! DEFINITION. The station table that a ring manager must compute from the link-state database (R377). A drill computes it on a port's
tutor and writes it by ST_DATA_WRITE and TABLE_COMMIT; no command of its own runs here. -/
namespace Sys2Proof.Machine

/-- The station at the other end of the link on a port of a station, while that link is ACTIVE (R377, R390). -/
def linkEnd (db : Tbl Bytes) (s port : Nat) : Option Nat :=
  match tfind db s with
  | some r => let o := 12 + 8 * port; if fld r o 1 = 5 then some (fld r (o + 2) 2) else none
  | none => none

/-- Live hops from a station to another along one port's direction (R377 rule 1): none where a link on the way is not ACTIVE. -/
def hopsAlong (db : Tbl Bytes) (port target : Nat) : Nat → Nat → Option Nat
  | 0, s => if s = target then some 0 else none
  | n + 1, s =>
    if s = target then some 0
    else match linkEnd db s port with
      | some t => (hopsAlong db port target n t).map (· + 1)
      | none => none

/-- Direction (1 UP, 2 DOWN) and hops along one ring: the fewer, UP where both have the same (R377 rule 1). -/
def ringWay (db : Tbl Bytes) (column : Bool) (fuel s target : Nat) : Option (Nat × Nat) :=
  let base := if column then 2 else 0
  match hopsAlong db base target fuel s, hopsAlong db (base + 1) target fuel s with
  | some u, some w => if u ≤ w then some (1, u) else some (2, w)
  | some u, none => some (1, u)
  | none, some w => some (2, w)
  | none, none => none

/-- The station-table entry of station x for d in a fabric of rows × cols (R375, R377): 0 where no route exists. -/
def ringEntry (db : Tbl Bytes) (rows cols x d : Nat) : Nat :=
  let row (a b : Nat) := ringWay db false cols a b
  let col (a b : Nat) := ringWay db true rows a b
  let mk (colFirst r c hops : Nat) : Nat := 0x8000 + at_ colFirst 14 + at_ r 12 + at_ c 10 + hops
  if x = d then 0x8000
  else if x / 64 = d / 64 then match row x d with | some (r, n) => mk 0 r 0 n | none => 0
  else if x % 64 = d % 64 then match col x d with | some (c, n) => mk 0 0 c n | none => 0
  else
    let k := x / 64 * 64 + d % 64
    let k' := d / 64 * 64 + x % 64
    match row x k, col k d with
    | some (r, n), some (c, m) => mk 0 r c (n + m)
    | _, _ => match col x k', row k' d with
      | some (c, n), some (r, m) => mk 1 r c (n + m)
      | _, _ => 0

/-- The entry that this station's ring manager gives a destination. -/
def Dev.managedEntry (d : Dev) (dest : Nat) : Nat := ringEntry d.fab.ringDb d.rows d.cols d.station dest

end Sys2Proof.Machine
end

