-- ==== Sys2Proof/Machine/Pins.lean ====
section
/-! DEFINITION. Output pins that follow from the state (R440, R441, R449, R450, R453). -/
namespace Sys2Proof.Machine

/-- The module holds power and is in reset: MOD_RESET# is low, or boot has not begun (R414, R415). -/
def State.inReset (s : State) : Bool := s.care.power == .good && (s.care.resetLow || decide (s.care.run.stage < 2))
/-- ALERT# is driven low (R441). -/
def State.alertLow (s : State) : Bool := s.inReset || (s.running && (s.dev.flt.timerRun || s.dev.flt.stage != 0))
/-- CLKREQ# is driven low, from power-good onwards (R440). -/
def State.clkreqLow (s : State) : Bool := s.care.power == .good
/-- What STEP_OUT drives; none while it is high impedance (R449). -/
def State.stepOutLevel (s : State) : Option Bool := if s.running then some s.dev.pht.stepOutUntil.isSome else none
/-- What GPIO pin k (3 to 6) drives; none while its output is off (R450, R453). -/
def State.gpioLevel (s : State) (k : Nat) : Option Bool :=
  if s.running && s.dev.pinRole k == 4 then some (s.dev.rbit (pinCfg k) 8) else none

end Sys2Proof.Machine
end

