-- ==== Sys2Proof/Safety.lean ====
section
/-! DEFINITION. The words the claims are made in: what a command answers, which state is sound, what stays fixed for the life of
the module, when a drill instruction is about to be executed, which commands come from where. -/
namespace Sys2Proof
open Machine

/-! Where commands come from -/

/-- Commands of the power input and the reset pins, which act while the module does not run (R413 to R415, R418). -/
def Instr.ofSupply : Instr → Bool
  | .powerInputRise _ => true
  | .powerInputFall _ => true
  | .powerGood => true
  | .powerGoodTimeout => true
  | .powerStageRetry => true
  | .modResetPin _ => true
  | .perst _ => true
  | _ => false

/-- The command is a write of one register: the master, the register's address, the value. -/
def Instr.regRow : Instr → Option (Master × Nat × Word)
  | .phtBellDb m v => some (m, PHT + 0x40, v)
  | .phtEnable m v => some (m, PHT, v)
  | .phtDisable m v => some (m, PHT, v)
  | .ttbEntryArm m n v => some (m, ttbEnt n.toNat 4, v)
  | .ttbEntryDisarm m n v => some (m, ttbEnt n.toNat 4, v)
  | .ttbEnable m v => some (m, TTB, v)
  | .attSnap m v => some (m, ATT + 0x20, v)
  | .holdSwitchClear m v => some (m, PLT, v)
  | .tutorRun m t v => some (m, tutorRegs t.val, v)
  | .tutorClrFault m t v => some (m, tutorRegs t.val, v)
  | .tileCounterClear m t v => some (m, tilReg t.val 8, v)
  | .tileInject m t v => some (m, tilReg t.val 8, v)
  | .cluClear m c v => some (m, cluReg c.val 8, v)
  | .cluStatClear m c v => some (m, cluReg c.val 0x804, v)
  | .tilColClear m t v => some (m, tilReg t.val 0x60, v)
  | .tilMxClear m t v => some (m, tilReg t.val 0x58, v)
  | .selClear m t v => some (m, tilReg t.val 0xA0, v)
  | .gthClear m c v => some (m, cluReg c.val 0x400, v)
  | .replDisable m c v => some (m, cluReg c.val 0x400, v)
  | .cmpClear m q v => some (m, qdrReg q.val 0x82C, v)
  | .memTdClear m v => some (m, MEM + 0x31018, v)
  | .memErrClear m v => some (m, MEM + 0x20, v)
  | .ringEnable m n v => some (m, rngReg n.val 0, v)
  | .ringDisable m n v => some (m, rngReg n.val 0, v)
  | .cmdSwap m c v => some (m, ichReg c.val 0x54, v)
  | .cmdTermAdvance m c v => some (m, ichReg c.val 0x54, v)
  | .cmpSubmitGo m q v => some (m, qdrReg q.val 0x8C0, v)
  | .portRetrain m p v => some (m, prtReg p.val 0, v)
  | .stDataWrite m p v => some (m, prtReg p.val 0x104, v)
  | .tableCommit m p v => some (m, prtReg p.val 0x108, v)
  | .fltAck m v => some (m, FLT + 0x14, v)
  | .resume m v => some (m, FLT, v)
  | .ctkReset m v => some (m, CTK + 0x20, v)
  | _ => none

/-- Commands that the host gives over its link, register rows apart (R120, R123, R145). -/
def Instr.fromHost : Instr → Bool
  | .auxCapTbRead .host => true
  | .loRead .host _ _ _ => true
  | .registerWrite .host _ _ _ => true
  | .bitAliasWrite .host _ _ _ => true
  | .apertureWrite _ _ => true
  | .bar4Access _ _ _ _ => true
  | .doorbell _ _ _ => true
  | .descriptorFetch _ => true
  | .msixUnmask _ => true
  | _ => false

end Sys2Proof

namespace Sys2Proof.Machine

/-! What a command answers -/

/-- The command answers a next state: the device is d, the queue and the caretaker are as before, and the boot stage follows the
device (R417). -/
def Yields (c : Instr) (s : State) (d : Dev) : Prop := exec c s = .next (s.setDev (fun _ => d)).settle

/-- The command answers a next state of that form, and the property holds of its device. -/
def YieldsSome (c : Instr) (s : State) (p : Dev → Prop) : Prop := ∃ d, Yields c s d ∧ p d

/-- The command answers a next state: the device is d, and everything else is as before. -/
def Leaves (c : Instr) (s : State) (d : Dev) : Prop := exec c s = .next (s.setDev (fun _ => d))

/-- The command answers a next state of that form, and the property holds of its device. -/
def LeavesSome (c : Instr) (s : State) (p : Dev → Prop) : Prop := ∃ d, Leaves c s d ∧ p d

/-- Two devices differ in their registers alone. -/
def Dev.SameButRegs (d e : Dev) : Prop := { d with regs := e.regs } = e

/-- A register file reads alike at every address but those of a set. -/
def Dev.RegsAgreeOff (d e : Dev) (p : Nat → Prop) : Prop := ∀ a, ¬ p a → d.rr a = e.rr a

/-- A master's write reaches the register at an address (R105, R116, R418). -/
def State.mayWrite (s : State) (m : Master) (a : Nat) : Bool := s.reaches m && (m != .tutor || isMasked a)

/-- A write of a masked register: bit i is under the mask, and its value (R128). -/
def maskedBit (v : Word) (i : Nat) (b : Bool) : Prop := v.getLsbD (16 + i) = true ∧ v.getLsbD i = b

/-- Bit i of a masked register is outside the mask (R128). -/
def unmaskedBit (v : Word) (i : Nat) : Prop := v.getLsbD (16 + i) = false

/-! Sound states -/

/-- The clock step in force is the largest of the thermal step, the power step and the floor, and none exceeds 15 (R433). -/
def State.ClockOk (s : State) : Prop :=
  s.care.run.s = max (max s.care.run.sT s.care.run.sP) s.care.run.floor
    ∧ s.care.run.sT ≤ 15 ∧ s.care.run.sP ≤ 15 ∧ s.care.run.floor ≤ 15

/-- What fuses and flash hold that no command of the block may lower or lose from one state to another (R414, R421, R423,
R425): the SVN minimum does not fall, its raises are counted, the serial number and the certificates stay, and an owner key
slot once taken stays taken. -/
structure KeptMonotone (a b : Kept) : Prop where
  minSvn : a.minSvn ≤ b.minSvn
  raises : a.raises ≤ b.raises
  serial : a.serial = b.serial
  certs : a.certs = b.certs
  cert1 : a.cert1 = b.cert1
  ownerSet : a.ownerSet = true → b.ownerSet = true
  owners : ∀ n, (tfind a.owners n).isSome = true → (tfind b.owners n).isSome = true

/-! Drill instructions (R110, R113) -/

/-- Tutor t runs and is about to execute a word whose bits under a mask are those of an instruction. -/
def Dev.poised (d : Dev) (t mask enc : Nat) : Bool :=
  (d.tutor t).mode == .running && decide ((d.tutor t).spent ≤ d.budget t) && decide ((d.tutor t).pc.toNat < 16384)
    && (d.tutor t).pc.toNat % 4 == 0 && legalWord (d.tutor t).word && Nat.land (d.tutor t).word mask == Nat.land enc mask

/-- The instruction counts against the budget (R110). -/
def TutorSt.ran (x : TutorSt) : TutorSt := { x with spent := x.spent + 1 }

/-- A tutor with a result in a register, its pc moved on past the instruction. -/
def TutorSt.gave (x : TutorSt) (rd : Greg) (v : Word) : TutorSt := (x.ran.setG rd.val v).next x.pc.toNat

/-- The command makes tutor t what is given, and changes nothing else. -/
def YieldsTutor (c : Instr) (s : State) (t : TutorIx) (x : TutorSt) : Prop := Yields c s (s.dev.setTutor t.val x)

/-- A three-register instruction computes a function of its two sources (R114). -/
def AluLaw (mk : TutorIx → Greg → Greg → Greg → Instr) (op : Nat) (f : Word → Word → Word) : Prop :=
  ∀ (s : State) (t : TutorIx) (rd ra rb : Greg),
    s.running = true → s.dev.poised t.val maskAll (encF1 op rd ra rb) = true →
    YieldsTutor (mk t rd ra rb) s t
      ((s.dev.tutor t.val).gave rd (f ((s.dev.tutor t.val).g ra.val) ((s.dev.tutor t.val).g rb.val)))

/-- An instruction on a register and an immediate (R114). -/
def ImmLaw (mk : TutorIx → Greg → Greg → BitVec 16 → Instr) (op : Nat) (f : Word → BitVec 16 → Word) : Prop :=
  ∀ (s : State) (t : TutorIx) (rd ra : Greg) (imm : BitVec 16),
    s.running = true → s.dev.poised t.val maskAll (encF2 op rd ra imm) = true →
    YieldsTutor (mk t rd ra imm) s t ((s.dev.tutor t.val).gave rd (f ((s.dev.tutor t.val).g ra.val) imm))

/-- A conditional branch goes to its own address plus four times the offset when the condition holds, and on otherwise (R114). -/
def BranchLaw (mk : TutorIx → Greg → Greg → BitVec 16 → Instr) (op : Nat) (c : Word → Word → Prop) : Prop :=
  ∀ (s : State) (t : TutorIx) (ra rb : Greg) (off : BitVec 16),
    s.running = true → s.dev.poised t.val maskAll (encF2 op ra rb off) = true →
    let x := s.dev.tutor t.val
    (c (x.g ra.val) (x.g rb.val) →
      YieldsTutor (mk t ra rb off) s t (x.ran.jump (x.pc + BitVec.ofInt 32 (4 * off.toInt))))
    ∧ (¬ c (x.g ra.val) (x.g rb.val) → YieldsTutor (mk t ra rb off) s t (x.ran.next x.pc.toNat))

/-- A load of n bytes (R105, R114): a place that the address leads to gives its bytes, zero-extended; a misaligned address
faults with ALIGN, one that leads nowhere with ADDR. -/
def LoadLaw (mk : TutorIx → Greg → Greg → BitVec 16 → Instr) (op n : Nat) : Prop :=
  ∀ (s : State) (t : TutorIx) (rd ra : Greg) (imm : BitVec 16),
    s.running = true → s.dev.poised t.val maskAll (encF2 op rd ra imm) = true →
    let x := s.dev.tutor t.val
    let a := (x.g ra.val + imm.signExtend 32).toNat
    (a % n ≠ 0 → Yields (mk t rd ra imm) s ((s.dev.setTutor t.val x.ran).tutorFault t.val 2))
    ∧ (a % n = 0 → s.dev.localAt t.val a n false = none →
        Yields (mk t rd ra imm) s ((s.dev.setTutor t.val x.ran).tutorFault t.val 3))
    ∧ (a % n = 0 → ∀ b, a + n ≤ 0x2000 → b = BitVec.ofNat 32 (ofLe ((List.range n).map (fun i => tget 0 x.scratch (a + i)))) →
        YieldsTutor (mk t rd ra imm) s t (x.gave rd b))
    ∧ (a % n = 0 → ∀ y, s.dev.localAt t.val a n false = some (.sram y) →
        YieldsTutor (mk t rd ra imm) s t (x.gave rd (BitVec.ofNat 32 (s.dev.mnum y n))))

/-- A store of the low n bytes of the register that the rd field names (R105, R114): to scratch, it changes the tutor alone; to
shared memory, those n bytes alone besides. -/
def StoreLaw (mk : TutorIx → Greg → Greg → BitVec 16 → Instr) (op n : Nat) : Prop :=
  ∀ (s : State) (t : TutorIx) (rd ra : Greg) (imm : BitVec 16),
    s.running = true → s.dev.poised t.val maskAll (encF2 op rd ra imm) = true →
    let x := s.dev.tutor t.val
    let a := (x.g ra.val + imm.signExtend 32).toNat
    (a % n ≠ 0 → Yields (mk t rd ra imm) s ((s.dev.setTutor t.val x.ran).tutorFault t.val 2))
    ∧ (a % n = 0 → s.dev.localAt t.val a n true = none →
        Yields (mk t rd ra imm) s ((s.dev.setTutor t.val x.ran).tutorFault t.val 3))
    ∧ (a % n = 0 → a + n ≤ 0x2000 →
        YieldsSome (mk t rd ra imm) s (fun d =>
          d = s.dev.setTutor t.val { x.ran.next x.pc.toNat with scratch := (d.tutor t.val).scratch }
          ∧ ∀ b, tget 0 (d.tutor t.val).scratch b
              = if a ≤ b ∧ b < a + n then BitVec.ofNat 8 ((x.g rd.val).toNat / 256 ^ (b - a)) else tget 0 x.scratch b))
    ∧ (a % n = 0 → ∀ y, s.dev.localAt t.val a n true = some (.sram y) →
        YieldsSome (mk t rd ra imm) s (fun d =>
          d.tutor t.val = x.ran.next x.pc.toNat ∧ d.regs = s.dev.regs
          ∧ ∀ b, d.mem.read b
              = if y ≤ b ∧ b < y + n then BitVec.ofNat 8 ((x.g rd.val).toNat / 256 ^ (b - y)) else s.dev.mem.read b))

/-! Register writes -/

/-- A write of one register clears a set of registers and changes nothing else. -/
def ClearLaw (c : Instr) (s : State) (p : Nat → Prop) : Prop :=
  YieldsSome c s (fun d => d.RegsAgreeOff s.dev p ∧ (∀ a, p a → d.rr a = 0) ∧ d.SameButRegs s.dev)

/-- The n registers from an address on. -/
def regRun (a n : Nat) (b : Nat) : Prop := ∃ k, k < n ∧ b = a + 4 * k

/-- A global register block, the caretaker's and the security block apart: its addresses are canonical (R119, R131). -/
def globalReg (a : Nat) : Prop := GLB ≤ a ∧ a < GLB + 0x1000000 ∧ a % 4 = 0 ∧ ¬ (SEC ≤ a ∧ a < MEM)

/-! Descriptors (R145 to R151) -/

/-- Ring n, once what stands in front and has no command of its own has been refused, executes next the fetched descriptor f,
whose bytes are b and whose opcode is op. -/
def Dev.AtFront (d : Dev) (n op : Nat) (f : Fetched) (b : Bytes) : Prop :=
  (d.skim n).front n = some f ∧ f.desc = some b ∧ Dsc.op b = op

/-- The device with the front descriptor of a ring taken off. -/
def Dev.taken (d : Dev) (n : Nat) : Dev := (d.skim n).pop n

/-- A command of ring 0 executes the front descriptor: what it leaves, before what stands next and has no command is refused. -/
def AdminLaw (c : Instr) (op used : Nat) (p : Dev → Origin → Bytes → Dev → Prop) : Prop :=
  ∀ (s : State) (f : Fetched) (b : Bytes), s.running = true → s.dev.AtFront 0 op f b →
    Dsc.headOk b = true → zeroAt b used (64 - used) = true →
    ∀ e : Dev, p (s.dev.taken 0) (originOf 0 f) b e → Yields c s (e.skim 0)

/-- A task packet for a slot of a task with a new key, to a quadrant's input port. -/
structure NewTask (d : Dev) (q port : Nat) (a : Arrival) : Prop where
  own : pktOwn q a.pkt = true
  fresh : d.pktFresh a.pkt = true
  notDirect : Pkt.direct a.pkt = false
  noMatch : ∀ t ∈ (d.quad q).tasks, ¬ (t.phase = .waiting ∧ t.keyIs a.pkt = true)
  room : (d.quad q).occ < 4096 ∧ (port = 0 → (d.quad q).occ + d.rf (qdrReg q 8) 12 0 < 4096)

/-! The work of seats (R154, R162, R210) -/

/-- A task that has done its work: its status unless it already had one, a mark in place of OK, its results with its marks. -/
def Task.did (t : Task) (st : Status) (rs : List Result) : Task :=
  { t with
    phase := .worked
    status := if t.status = .ok then (if st = .ok then markOf t.corrupt t.subst else st) else t.status
    result := 0
    results := rs.map (fun r => { r with corrupt := r.corrupt || t.corrupt, subst := r.subst || t.subst }) }

/-- An output of n bytes fits a slot of the output allocation of a parameter block, and one is free. -/
def Dev.hasSlot (d : Dev) (p : Bytes) (n : Nat) : Bool :=
  decide (1 ≤ d.slotCount (fld p 4 4) (fld p 8 4)) && decide (n ≤ fld p 8 4) && (d.nextSlot (fld p 4 4) (fld p 8 4)).isSome

/-- The task has done its work with one result, whose bytes stand in memory. -/
def Dev.gaveOut (d : Dev) (q : Nat) (t : Task) (out : Bytes) : Prop :=
  ∃ a, d.task q t.uid = some (t.did .ok [{ payload := a, length := out.length }]) ∧ d.mem.readN a out.length = out

/-- The work of a FILTER, HASH, BUCKET or NORM seat (R210): an input that is no batch ends the task with FORMAT; the operations in
entry order give the output batch, which stands in a free slot of the output allocation. -/
def ColLaw (mk : Seat → Instr) (role : Nat) : Prop :=
  ∀ (s : State) (seat : Seat) (q : Nat) (t : Task) (d : Dev) (raw : Bytes),
    s.running = true → s.dev.atWork seat.val role = some (q, t) → t.tag ≠ BitVec.allOnes 48 →
    s.dev.normWaits (colOps t.params) t.tag = false →
    (s.dev.nameTags (colOps t.params) t.tag).operandData t 0 = (d, some raw) →
    (s.dev.inputBatch t.params raw = none → YieldsSome (mk seat) s (fun e => e.task q t.uid = some (t.did .format [])))
    ∧ (∀ b n out, s.dev.inputBatch t.params raw = some b → colRun d t.params t.tag (colOps t.params) b {} = (n, some out) →
        d.hasSlot t.params out.bytes.length = true → YieldsSome (mk seat) s (fun e => e.gaveOut q t out.bytes))

/-! Faults (R396, R399) -/

/-- A fault of a source does not isolate the module. -/
def Dev.mild (d : Dev) (source : Nat) : Bool := d.fltLevel source != 3

end Sys2Proof.Machine
end

