-- ==== Sys2Proof/Certificates/Slice0/Obligations.lean ====
section
/-! DEFINITION. The statements for the provers. -/
open Sys2Proof Sys2Proof.Machine

/-! The machine -/

/-- A step with a command waiting is exec of the front command on the state with the rest of the queue. -/
def Obligations.StepRunsFrontCommand : Prop :=
  ∀ (c : Instr) (rest : List Instr) (s : State), step { s with pending := c :: rest } = exec c { s with pending := rest }

/-- On an empty queue one timebase cycle passes while the module runs (the model's choice, log entry 7): NOW is one more and the
quadrant core has made 17 × (16 − S) sixty-fourths of a cycle (R20, R433); the caretaker, the queue, memory, phase tracker, Plat, seats,
tutors and schedulers' tasks stay as they are. While the module does not run, nothing changes. -/
def Obligations.IdleStepIsOneTick : Prop :=
  ∀ s : State, s.pending = [] →
    (s.running = true → ∃ t, step s = .next t ∧ t.care = s.care ∧ t.pending = []
      ∧ t.dev.now = s.dev.now + 1 ∧ t.dev.qcyc64 = s.dev.qcyc64 + 17 * (16 - s.care.run.s)
      ∧ t.dev.mem = s.dev.mem ∧ t.dev.pht = s.dev.pht ∧ t.dev.plt = s.dev.plt ∧ t.dev.seats = s.dev.seats
      ∧ t.dev.tutors = s.dev.tutors ∧ t.dev.flt = s.dev.flt ∧ t.dev.host = s.dev.host
      ∧ ∀ q, (t.dev.quad q).tasks = (s.dev.quad q).tasks)
    ∧ (s.running = false → step s = .next s)

/-- Every command answers a next state, and leaves the queue alone. -/
def Obligations.EveryCommandAnswersNext : Prop :=
  ∀ (c : Instr) (s : State), ∃ t, exec c s = .next t ∧ t.pending = s.pending

/-- While the module is without power, held in reset or before stage 2, only the power input and the reset pins change anything. -/
def Obligations.OnlySupplyActsWhileStopped : Prop :=
  ∀ (c : Instr) (s : State), s.running = false → c.ofSupply = false → exec c s = .next s

/-- While the function does not answer the host, no access of the host changes anything (R414, R418).
A write of one register by a master that does not reach it changes nothing: the host without its link, anyone while the
module does not run, a tutor outside the windows of units (R105). -/
def Obligations.UnreachedAccessesAreLost : Prop :=
  (∀ (c : Instr) (s : State), s.hostUp = false →
    (c.fromHost = true ∨ ∃ a v, c.regRow = some (Master.host, a, v)) → exec c s = .next s)
  ∧ (∀ (c : Instr) (s : State) (m : Master) (a : Nat) (v : Word),
    c.regRow = some (m, a, v) → s.mayWrite m a = false → exec c s = .next s)

/-- Every step keeps the clock steps in order (R433). -/
def Obligations.StepKeepsClockOk : Prop := ∀ s t : State, s.ClockOk → step s = .next t → t.ClockOk

/-- No step loses what fuses and flash hold (R414, R421, R423, R425). -/
def Obligations.StepKeepsFuses : Prop := ∀ s t : State, step s = .next t → KeptMonotone s.care.kept t.care.kept

/-- Bytes written to memory read back, a zeroed range reads zero, a range whose contents the spec leaves undefined reads a free value
(log entry 1); in each case every other byte reads as before. -/
def Obligations.MemoryRanges : Prop :=
  (∀ (m : Memory) (a b : Nat) (data : Bytes),
    (m.writeN a data).read b = if a ≤ b ∧ b < a + data.length then data.getD (b - a) 0 else m.read b)
  ∧ (∀ (m : Memory) (a len b : Nat),
    (m.zero a len).read b = if a ≤ b ∧ b < a + len then 0 else m.read b)
  ∧ (∀ (m : Memory) (a len seed b : Nat),
    (m.scramble a len seed).read b = if a ≤ b ∧ b < a + len then Config.freeByte seed b else m.read b)

/-! Drill instructions -/

/-- Arithmetic, logic and immediates (R114, R219, R220): each gives its result in rd. CLZ gives 32 for zero and otherwise the n for
which 2^(31 − n) ≤ ra < 2^(32 − n); ADDI extends the sign, ANDI and ORI extend with zeros, LUI fills the upper half. -/
def Obligations.DrillArithmetic : Prop :=
  (AluLaw .add 0x00 (fun a b => a + b) ∧ AluLaw .sub 0x01 (fun a b => a - b)
  ∧ AluLaw .and 0x02 (fun a b => a &&& b) ∧ AluLaw .or 0x03 (fun a b => a ||| b) ∧ AluLaw .xor 0x04 (fun a b => a ^^^ b)
  ∧ AluLaw .sll 0x05 (fun a b => a <<< (b.toNat % 32)) ∧ AluLaw .srl 0x06 (fun a b => a >>> (b.toNat % 32))
  ∧ AluLaw .sra 0x07 (fun a b => a.sshiftRight (b.toNat % 32))
  ∧ AluLaw .slt 0x08 (fun a b => if a.toInt < b.toInt then 1 else 0)
  ∧ AluLaw .sltu 0x09 (fun a b => if a.toNat < b.toNat then 1 else 0)
  ∧ AluLaw .mul 0x0A (fun a b => BitVec.ofInt 32 (a.toInt * b.toInt))
  ∧ AluLaw .mulh 0x0B (fun a b => BitVec.ofInt 32 (a.toInt * b.toInt / 2 ^ 32))
  ∧ AluLaw .mulhu 0x0C (fun a b => BitVec.ofNat 32 (a.toNat * b.toNat / 2 ^ 32)))
  ∧ ((∀ (s : State) (t : TutorIx) (rd ra : Greg), s.running = true → s.dev.poised t.val maskAll (encF1 0x0D rd ra 0) = true →
    let x := s.dev.tutor t.val
    ∃ n : Word, YieldsTutor (.clz t rd ra) s t (x.gave rd n)
      ∧ (x.g ra.val = 0 → n = 32)
      ∧ (x.g ra.val ≠ 0 → n.toNat ≤ 31 ∧ 2 ^ (31 - n.toNat) ≤ (x.g ra.val).toNat ∧ (x.g ra.val).toNat < 2 ^ (32 - n.toNat)))
  ∧ AluLaw .crc32c 0x0E (fun a b =>
      crcByte (crcByte (crcByte (crcByte a (b.extractLsb' 0 8)) (b.extractLsb' 8 8)) (b.extractLsb' 16 8)) (b.extractLsb' 24 8))
  ∧ AluLaw .crcb 0x0F (fun a b => crcByte a (b.extractLsb' 0 8))
  ∧ (∀ (s : State) (t : TutorIx) (rd ra : Greg), s.running = true → s.dev.poised t.val maskAll (encF1 0x10 rd ra 0) = true →
    let x := s.dev.tutor t.val
    let v := Sys2Proof.Machine.mix64 (x.g (ra.val + 1) ++ x.g ra.val)
    YieldsTutor (.mix64 t rd ra) s t
      (((x.ran.setG rd.val (v.extractLsb' 0 32)).setG (rd.val + 1) (v.extractLsb' 32 32)).next x.pc.toNat))
  ∧ (∀ (s : State) (t : TutorIx) (rd ra rb : Greg), s.running = true → s.dev.poised t.val maskAll (encF1 0x11 rd ra rb) = true →
    let x := s.dev.tutor t.val
    YieldsTutor (.reduce t rd ra rb) s t
      (x.gave rd (BitVec.ofNat 32 (((x.g ra.val).toNat + 2 ^ 32 * (x.g (ra.val + 1)).toNat) * (x.g rb.val).toNat / 2 ^ 64)))))
  ∧ (ImmLaw .addi 0x14 (fun a i => a + BitVec.ofInt 32 i.toInt)
  ∧ ImmLaw .andi 0x15 (fun a i => a &&& BitVec.ofNat 32 i.toNat) ∧ ImmLaw .ori 0x16 (fun a i => a ||| BitVec.ofNat 32 i.toNat)
  ∧ ImmLaw .slli 0x17 (fun a i => a <<< (i.toNat % 32)) ∧ ImmLaw .srli 0x18 (fun a i => a >>> (i.toNat % 32))
  ∧ ImmLaw .srai 0x19 (fun a i => a.sshiftRight (i.toNat % 32))
  ∧ (∀ (s : State) (t : TutorIx) (rd : Greg) (imm : BitVec 16),
      s.running = true → s.dev.poised t.val maskAll (encF2 0x1A rd 0 imm) = true →
      YieldsTutor (.lui t rd imm) s t ((s.dev.tutor t.val).gave rd (BitVec.ofNat 32 (imm.toNat * 65536)))))

/-- Loads and stores: scratch and shared memory, and where they fault (R105, R110, R114). -/
def Obligations.DrillLoadsAndStores : Prop :=
  LoadLaw .lw 0x1B 4 ∧ LoadLaw .lbu 0x1C 1 ∧ StoreLaw .sw 0x1D 4 ∧ StoreLaw .sb 0x1E 1

/-- Branches, J, CALL and JALR (R114): CALL and JALR leave the next address in a register, JALR to a misaligned target faults
with ALIGN.
LOOP (R115): it runs its body ra[15:0] times, a count of 0 skips it, a third nesting or a body past the drill store faults
with LOOP; and what the end of a body does: again while runs are left, else on, through the end of an outer body that ends there
too. -/
def Obligations.DrillJumps : Prop :=
  (BranchLaw .beq 0x20 (fun a b => a = b) ∧ BranchLaw .bne 0x21 (fun a b => a ≠ b)
  ∧ BranchLaw .blt 0x22 (fun a b => a.toInt < b.toInt) ∧ BranchLaw .bge 0x23 (fun a b => b.toInt ≤ a.toInt)
  ∧ BranchLaw .bltu 0x24 (fun a b => a.toNat < b.toNat) ∧ BranchLaw .bgeu 0x25 (fun a b => b.toNat ≤ a.toNat)
  ∧ (∀ (s : State) (t : TutorIx) (off : BitVec 26), s.running = true → s.dev.poised t.val maskAll (encF4 0x28 off) = true →
      let x := s.dev.tutor t.val
      YieldsTutor (.j t off) s t (x.ran.jump (x.pc + BitVec.ofInt 32 (4 * off.toInt))))
  ∧ (∀ (s : State) (t : TutorIx) (off : BitVec 26), s.running = true → s.dev.poised t.val maskAll (encF4 0x29 off) = true →
      let x := s.dev.tutor t.val
      YieldsTutor (.call t off) s t ((x.ran.setG 31 (x.pc + 4)).jump (x.pc + BitVec.ofInt 32 (4 * off.toInt))))
  ∧ (∀ (s : State) (t : TutorIx) (rd ra : Greg) (imm : BitVec 16),
      s.running = true → s.dev.poised t.val maskAll (encF2 0x1F rd ra imm) = true →
      let x := s.dev.tutor t.val
      let aim := x.g ra.val + BitVec.ofInt 32 imm.toInt
      (aim.toNat % 4 = 0 → YieldsTutor (.jalr t rd ra imm) s t ((x.ran.setG rd.val (x.pc + 4)).jump aim))
      ∧ (aim.toNat % 4 ≠ 0 → Yields (.jalr t rd ra imm) s ((s.dev.setTutor t.val x.ran).tutorFault t.val 2))))
  ∧ ((∀ (s : State) (t : TutorIx) (ra : Greg) (off : BitVec 16),
    s.running = true → s.dev.poised t.val maskAll (encF2 0x26 ra 0 off) = true →
    let x := s.dev.tutor t.val
    let n := (x.g ra.val).toNat % 65536
    let last := x.pc.toNat + 4 * off.toNat
    ((2 ≤ x.loops.length ∨ 16384 ≤ last) → Yields (.loop t ra off) s ((s.dev.setTutor t.val x.ran).tutorFault t.val 4))
    ∧ (x.loops.length < 2 → last < 16384 → 0 < n → YieldsTutor (.loop t ra off) s t
        { x.ran with loops := { first := x.pc.toNat + 4, last, left := n } :: x.loops, pc := x.pc + 4 })
    ∧ (x.loops.length < 2 → last < 16384 → n = 0 → YieldsTutor (.loop t ra off) s t (x.ran.next last)))
  ∧ (∀ (x : TutorSt) (a : Nat), (∀ l ∈ x.loops.head?, l.last ≠ a) → x.next a = { x with pc := BitVec.ofNat 32 (a + 4) })
  ∧ (∀ (x : TutorSt) (l : Loop) (outer : List Loop), x.loops = l :: outer →
      x.next l.last = if 1 < l.left then { x with loops := { l with left := l.left - 1 } :: outer, pc := BitVec.ofNat 32 l.first }
        else ({ x with loops := outer }).next l.last))

/-- SEND and SENDNB to a tutor (R107): the eight registers go to the end of the queue of the tutor that rt names while it holds
fewer than eight messages; a full queue stalls SEND and leaves 1 in SENDNB's status register; a queue number from 0x0C on, a
register range past g31 or a reference to no tutor faults with QUEUE. -/
def Obligations.DrillSends : Prop :=
  ∀ (s : State) (t : TutorIx) (r rt st : Greg) (queue : Byte), s.running = true → rt.val ≠ 0 →
    let x := s.dev.tutor t.val
    let d0 := s.dev.setTutor t.val x.ran
    let m := (List.range 8).map (fun i => x.g (r.val + i))
    let bad := 24 < r.val ∨ 0xC ≤ queue.toNat ∨ denseTutor (x.g rt.val).toNat = none
    (s.dev.poised t.val maskSend (encF5 0x30 r rt queue 0) = true →
      (bad → Yields (.send t r rt queue) s (d0.tutorFault t.val 6))
      ∧ (¬ bad → ∀ u, denseTutor (x.g rt.val).toNat = some u →
          (8 ≤ (tget [] (s.dev.tutor u).queues queue.toNat).length →
            YieldsTutor (.send t r rt queue) s t { x.ran with mode := .blocked, spent := 0 })
          ∧ ((tget [] (s.dev.tutor u).queues queue.toNat).length < 8 →
            YieldsSome (.send t r rt queue) s (fun d =>
              tget [] (d.tutor u).queues queue.toNat = tget [] (s.dev.tutor u).queues queue.toNat ++ [m]
              ∧ (d.tutor t.val).pc = (x.next x.pc.toNat).pc ∧ (d.tutor t.val).regs = x.regs
              ∧ (∀ v, v ≠ t.val → v ≠ u → d.tutor v = s.dev.tutor v)
              ∧ { d with tutors := s.dev.tutors } = s.dev))))
    ∧ (s.dev.poised t.val maskAll (encF5 0x31 r rt queue st) = true →
      (bad → Yields (.sendnb t r rt queue st) s (d0.tutorFault t.val 6))
      ∧ (¬ bad → ∀ u, denseTutor (x.g rt.val).toNat = some u →
          (8 ≤ (tget [] (s.dev.tutor u).queues queue.toNat).length →
            YieldsTutor (.sendnb t r rt queue st) s t (x.gave st 1))
          ∧ ((tget [] (s.dev.tutor u).queues queue.toNat).length < 8 →
            YieldsSome (.sendnb t r rt queue st) s (fun d =>
              tget [] (d.tutor u).queues queue.toNat = tget [] (s.dev.tutor u).queues queue.toNat ++ [m]
              ∧ (d.tutor t.val).pc = (x.next x.pc.toNat).pc ∧ (d.tutor t.val).regs = (x.setG st.val 0).regs
              ∧ (∀ v, v ≠ t.val → v ≠ u → d.tutor v = s.dev.tutor v)
              ∧ { d with tutors := s.dev.tutors } = s.dev))))

/-- The special queues of R108: a task packet sets out for port 3 of the quadrant it names, sender 0xFFFE; a resubmission too, with
the epoch of the seat it names as it is now, or no seat; RINGPOST offers a drill event of the tutor's reference with the 28 bytes
after word 0 to the ring of word 0; CANCEL cancels and puts its two counts in the tutor's queue 15, and stalls while that is full;
GO starts the offered task with its TASK_ID on the tutor's seat (R109). -/
def Obligations.DrillSpecialQueues : Prop :=
  ∀ (s : State) (t : TutorIx) (r : Greg), s.running = true → r.val ≤ 24 →
    let x := s.dev.tutor t.val
    let d0 := s.dev.setTutor t.val x.ran
    let m := (List.range 8).map (fun i => x.g (r.val + i))
    let b := m.flatMap (fun w => leB 4 w.toNat)
    let on := x.ran.next x.pc.toNat
    (s.dev.poised t.val maskSend (encF5 0x30 r 0 0x80 0) = true →
      Yields (.sendTask t r) s ((s.dev.send (Pkt.quad b) 3 { pkt := b, sender := 0xFFFE }).setTutor t.val on))
    ∧ (s.dev.poised t.val maskSend (encF5 0x30 r 0 0x83 0) = true →
      let p := s.dev.resubmitted b
      Yields (.sendResub t r) s ((s.dev.send (Pkt.quad p) 3 { pkt := p, sender := 0xFFFE }).setTutor t.val on))
    ∧ (s.dev.poised t.val maskSend (encF5 0x30 r 0 0x84 0) = true →
      Yields (.sendRingpost t r) s
        ((s.dev.offer ((x.g r.val).toNat % 2 ^ 14) 3 (tutorRef t.val) false (b.drop 4)).setTutor t.val on))
    ∧ (s.dev.poised t.val maskSend (encF5 0x30 r 0 0x81 0) = true →
      (8 ≤ (tget [] x.queues 15).length → YieldsTutor (.sendCancel t r) s t { x.ran with mode := .blocked, spent := 0 })
      ∧ ((tget [] x.queues 15).length < 8 →
        let scope := bits (fld b 0 4) 1 0
        let c := d0.cancel (bits (fld b 0 4) 10 8) scope (if scope = 1 then bits (fld b 4 4) 9 0 else fld b 4 2) (fld b 8 6)
        YieldsSome (.sendCancel t r) s (fun d =>
          d.quads = c.1.quads ∧ d.mem = s.dev.mem
          ∧ tget [] (d.tutor t.val).queues 15
              = tget [] x.queues 15 ++ [[BitVec.ofNat 32 c.2.1, BitVec.ofNat 32 c.2.2, 0, 0, 0, 0, 0, 0]]
          ∧ (d.tutor t.val).pc = on.pc)))
    ∧ (s.dev.poised t.val maskSend (encF5 0x30 r 0 0x85 0) = true →
      (∀ n q uid k, tutorSeat t.val = some n → s.dev.offeredAt n (x.g r.val).toNat = some (q, uid) → s.dev.task q uid = some k →
        YieldsSome (.sendGo t r) s (fun d =>
          d.task q uid = some { k with phase := .seated_ } ∧ d.tutor t.val = on ∧ d.mem = s.dev.mem
          ∧ ((s.dev.seat n).runSince = none → (d.seat n).runSince = some (s.dev.now, s.dev.qcyc))))
      ∧ ((∀ n, tutorSeat t.val = some n → s.dev.offeredAt n (x.g r.val).toNat = none) → YieldsTutor (.sendGo t r) s t on))

/-- RECV, RECVNB and QCNT on an own queue, and RECV from the lost-and-found queue (R107, R108): the oldest message leaves the queue
and fills the registers from g[r] on, g0 apart; RECV of an empty queue stalls, RECVNB leaves 1 in its status register; QCNT counts.
An entry of the lost-and-found queue fills sixteen registers of a scheduler tutor while LAF_HOST is 0. -/
def Obligations.DrillReceives : Prop :=
  ∀ (s : State) (t : TutorIx) (r st : Greg) (queue : Byte), s.running = true →
    let x := s.dev.tutor t.val
    let d0 := s.dev.setTutor t.val x.ran
    let q := tget [] x.queues queue.toNat
    (s.dev.poised t.val maskSend (encF5 0x32 r 0 queue 0) = true → queue.toNat ≠ 0x82 →
      ((0xF < queue.toNat ∨ 24 < r.val) → Yields (.recv t r queue) s (d0.tutorFault t.val 6))
      ∧ (queue.toNat ≤ 0xF → r.val ≤ 24 → q = [] →
          YieldsTutor (.recv t r queue) s t { x.ran with mode := .blocked, spent := 0 })
      ∧ (queue.toNat ≤ 0xF → r.val ≤ 24 → ∀ m rest, q = m :: rest → m.length = 8 → ∃ y, YieldsTutor (.recv t r queue) s t y
          ∧ y.pc = (x.next x.pc.toNat).pc ∧ tget [] y.queues queue.toNat = rest
          ∧ (∀ i, i < 8 → r.val + i ≠ 0 → y.g (r.val + i) = m.getD i 0)
          ∧ (∀ k, k < r.val ∨ r.val + 8 ≤ k → y.g k = x.g k)))
    ∧ (s.dev.poised t.val maskAll (encF5 0x33 r 0 queue st) = true → queue.toNat ≤ 0xF → r.val ≤ 24 →
      (q = [] → YieldsTutor (.recvnb t r queue st) s t (x.gave st 1))
      ∧ (∀ m rest, q = m :: rest → m.length = 8 → ∃ y, YieldsTutor (.recvnb t r queue st) s t y
          ∧ y.pc = (x.next x.pc.toNat).pc ∧ tget [] y.queues queue.toNat = rest ∧ (st.val ≠ 0 → y.g st.val = 0)
          ∧ (∀ i, i < 8 → r.val + i ≠ 0 → r.val + i ≠ st.val → y.g (r.val + i) = m.getD i 0)))
    ∧ (s.dev.poised t.val maskSend (encF5 0x34 r 0 queue 0) = true →
      (queue.toNat ≤ 0xF → YieldsTutor (.qcnt t r queue) s t (x.gave r (BitVec.ofNat 32 q.length)))
      ∧ (0xF < queue.toNat → Yields (.qcnt t r queue) s (d0.tutorFault t.val 6)))
    ∧ (s.dev.poised t.val maskSend (encF5 0x32 r 0 0x82 0) = true → ∀ k, t.val = 1224 + k → k < 8 → r.val ≤ 16 →
      s.dev.rbit (qdrReg k 0) 2 = false →
      ∀ e rest, (s.dev.quad k).laf = e :: rest → e.length = 64 →
        YieldsSome (.recvLaf t r) s (fun d =>
          d.quad k = { s.dev.quad k with laf := rest } ∧ d.mem = s.dev.mem ∧ d.regs = s.dev.regs
          ∧ (d.tutor t.val).pc = (x.next x.pc.toNat).pc
          ∧ ∀ i, i < 16 → r.val + i ≠ 0 → (d.tutor t.val).g (r.val + i) = BitVec.ofNat 32 (fld e (4 * i) 4)))

/-- WAIT, SIG, SETTMR, RDSTEP, FENCE and HALT (R106, R114): WAIT takes the lowest event set in its mask and clears it, or sleeps
at the instruction. -/
def Obligations.DrillEvents : Prop :=
  ∀ (s : State) (t : TutorIx) (rd ra : Greg) (imm : BitVec 4), s.running = true →
    let x := s.dev.tutor t.val
    let on := x.ran.next x.pc.toNat
    (s.dev.poised t.val maskWait (encF6 0x38 rd ra 0) = true →
      let m := s.dev.eventsNow t.val &&& x.g ra.val
      (m = 0 → YieldsTutor (.wait t rd ra) s t { x with mode := .waiting, spent := 0 })
      ∧ (∀ i, i < 32 → m.getLsbD i = true → (∀ j, j < i → m.getLsbD j = false) →
          YieldsTutor (.wait t rd ra) s t
            (({ x with events := x.events &&& ~~~(1#32 <<< i), spent := 0 }.setG rd.val (BitVec.ofNat 32 i)).next x.pc.toNat)))
    ∧ (s.dev.poised t.val maskSig (encF6 0x39 0 ra imm) = true →
      (∀ u, denseTutor (x.g ra.val).toNat = some u → u ≠ t.val →
        Yields (.sig t ra imm) s ((s.dev.setTutor t.val on).setTutor u
          { s.dev.tutor u with events := (s.dev.tutor u).events ||| (1#32 <<< (16 + imm.toNat)) }))
      ∧ (denseTutor (x.g ra.val).toNat = some t.val →
          YieldsTutor (.sig t ra imm) s t { on with events := x.events ||| (1#32 <<< (16 + imm.toNat)) })
      ∧ (denseTutor (x.g ra.val).toNat = none → YieldsTutor (.sig t ra imm) s t on))
    ∧ (s.dev.poised t.val maskSet (encF6 0x3A 0 ra 0) = true →
      YieldsTutor (.settmr t ra) s t
        { on with timer := if x.g ra.val = 0 then none else some (s.dev.now + (x.g ra.val).toNat) })
    ∧ (s.dev.poised t.val maskRd (encF6 0x3B rd 0 imm) = true →
      (imm = 0 → YieldsTutor (.rdstep t rd imm) s t (x.gave rd (s.dev.pht.step.extractLsb' 0 32)))
      ∧ (imm = 1 → YieldsTutor (.rdstep t rd imm) s t (x.gave rd (BitVec.ofNat 32 (s.dev.pht.step.toNat / 2 ^ 32))))
      ∧ (imm = 2 → YieldsTutor (.rdstep t rd imm) s t (x.gave rd (BitVec.ofNat 32 s.dev.phase)))
      ∧ (imm = 3 → ∀ n, tutorSeat t.val = some n →
          YieldsTutor (.rdstep t rd imm) s t (x.gave rd (BitVec.ofNat 32 (s.dev.seat n).epoch)))
      ∧ (imm = 4 → ∀ n, tutorSeat t.val = some n →
          YieldsTutor (.rdstep t rd imm) s t (x.gave rd (BitVec.ofNat 32 (s.dev.seat n).role)))
      ∧ (imm = 5 → YieldsTutor (.rdstep t rd imm) s t (x.gave rd (BitVec.ofNat 32 (tutorRef t.val))))
      ∧ (imm = 6 → YieldsTutor (.rdstep t rd imm) s t (x.gave rd (s.dev.cycleCount t.val)))
      ∧ ((imm = 3 ∨ imm = 4) → tutorSeat t.val = none → Yields (.rdstep t rd imm) s
          { s.dev.setTutor t.val (x.gave rd (BitVec.ofNat 32 (Config.freeNat s.dev.free))) with free := s.dev.free + 1 })
      ∧ (7 ≤ imm.toNat → YieldsTutor (.rdstep t rd imm) s t (x.gave rd 0)))
    ∧ (s.dev.poised t.val maskOp (encF6 0x3C 0 0 0) = true → YieldsTutor (.fence t) s t on)
    ∧ (s.dev.poised t.val maskOp (encF6 0x3D 0 0 0) = true →
      Yields (.halt t) s ((s.dev.setTutor t.val { on with mode := .halted }).wbit (tutorRegs t.val) 0 false))

/-- Tutor control (R106, R110, R111): RUN from 0 to 1 restarts the tutor at its entry point with registers zero and queues empty,
scratch kept (that its event bits and its timer stay too is the model's choice, log entry 87); RUN from 1 to 0 halts it; CLR_FAULT
clears the code; a timer that has run out raises event 1; a spent budget faults; a sleeping tutor whose event has come takes it. -/
def Obligations.TutorControl : Prop :=
  ∀ (s : State) (m : Master) (t : TutorIx) (v : Word),
    let x := s.dev.tutor t.val
    let a := tutorRegs t.val
    (s.mayWrite m a = true → maskedBit v 0 true → ¬ maskedBit v 1 true → s.dev.rbit a 0 = false →
      YieldsSome (.tutorRun m t v) s (fun d =>
        d.tutor t.val = { x with
          events := s.dev.eventsNow t.val, regs := [], pc := x.entry, queues := [], loops := [], spent := 0, mode := .running }
        ∧ d.rbit a 0 = true ∧ d.RegsAgreeOff s.dev (· = a) ∧ ∀ u, u ≠ t.val → d.tutor u = s.dev.tutor u))
    ∧ (s.mayWrite m a = true → maskedBit v 0 false → ¬ maskedBit v 1 true → s.dev.rbit a 0 = true →
      YieldsSome (.tutorRun m t v) s (fun d =>
        d.tutor t.val = { x with mode := .halted } ∧ d.rbit a 0 = false ∧ d.RegsAgreeOff s.dev (· = a)))
    ∧ (s.mayWrite m a = true → unmaskedBit v 0 → maskedBit v 1 true →
      Yields (.tutorClrFault m t v) s (s.dev.setTutor t.val { x with fault := 0 }))
    ∧ (s.running = true → ∀ n, x.timer = some n → n ≤ s.dev.now →
      YieldsTutor (.tutorTimer t) s t { x with timer := none, events := x.events ||| 2#32 })
    ∧ (s.running = true → ∀ n, x.timer = some n → s.dev.now < n → Yields (.tutorTimer t) s s.dev)
    ∧ (s.running = true → x.mode = .running → s.dev.budget t.val < x.spent →
      YieldsSome (.tutorBudgetFault t) s (fun d => d.tutor t.val = { x with mode := .faulted, fault := 5, faultPc := x.pc }))
    ∧ (s.running = true → x.mode = .waiting → ∀ i ra : Greg, bits x.word 20 16 = ra.val →
      (s.dev.eventsNow t.val &&& x.g ra.val).getLsbD i.val = true →
      (∀ j, j < i.val → (s.dev.eventsNow t.val &&& x.g ra.val).getLsbD j = false) →
      YieldsTutor (.tutorWake t) s t
        (({ x with events := x.events &&& ~~~(1#32 <<< i.val), mode := .running, spent := 0 }.setG (bits x.word 25 21)
          (BitVec.ofNat 32 i.val)).next x.pc.toNat))

/-- A tutor fault (R110): the tutor stops with its code and the address of the instruction, RUN reads 0, no other tutor and no byte of
memory changes. What cannot be executed faults: outside the drill store ADDR, at a misaligned address ALIGN, a word that is no
instruction ILLEGAL, a spent budget BUDGET; said for ADD, whose meaning shares the check with every drill instruction. -/
def Obligations.TutorFaults : Prop :=
  (∀ (d : Dev) (t : TutorIx) (code : Nat),
    let x := d.tutor t.val
    let e := d.tutorFault t.val code
    e.tutor t.val = { x with mode := .faulted, fault := code, faultPc := x.pc } ∧ e.rbit (tutorRegs t.val) 0 = false
    ∧ (∀ u, u ≠ t.val → e.tutor u = d.tutor u) ∧ e.mem = d.mem)
  ∧ (∀ (s : State) (t : TutorIx) (rd ra rb : Greg), s.running = true → (s.dev.tutor t.val).mode = .running →
    let x := s.dev.tutor t.val
    (s.dev.budget t.val < x.spent → Yields (.add t rd ra rb) s (s.dev.tutorFault t.val 5))
    ∧ (x.spent ≤ s.dev.budget t.val → 16384 ≤ x.pc.toNat → Yields (.add t rd ra rb) s (s.dev.tutorFault t.val 3))
    ∧ (x.spent ≤ s.dev.budget t.val → x.pc.toNat < 16384 → x.pc.toNat % 4 ≠ 0 →
        Yields (.add t rd ra rb) s (s.dev.tutorFault t.val 2))
    ∧ (x.spent ≤ s.dev.budget t.val → x.pc.toNat < 16384 → x.pc.toNat % 4 = 0 → legalWord x.word = false →
        Yields (.add t rd ra rb) s (s.dev.tutorFault t.val 1)))

/-! Registers -/

/-- The counter clears of R134, R135, R136, R243, R267, R286, R311, R329, R345 and R359: writing 1 to the clear bit zeroes the unit's
counters; no other register and nothing else changes. (The clear of a tile's own counters also restarts the account of the task it
runs; CMP_CLR also drops the parts of a KiB counted so far.) -/
def Obligations.CounterClears : Prop :=
  ∀ (s : State) (m : Master) (v : Word),
    (∀ c : ClusterIx, s.mayWrite m (cluReg c.val 8) = true → maskedBit v 0 true →
      ClearLaw (.cluClear m c v) s (regRun (cluReg c.val 0xC) 2))
    ∧ (∀ c : ClusterIx, s.mayWrite m (cluReg c.val 0x804) = true → maskedBit v 0 true →
      ClearLaw (.cluStatClear m c v) s (fun a => regRun (cluReg c.val 0x808) 2 a ∨ a = cluReg c.val 0x814))
    ∧ (∀ t : TileIx, s.mayWrite m (tilReg t.val 0x60) = true → maskedBit v 0 true →
      ClearLaw (.tilColClear m t v) s (regRun (tilReg t.val 0x64) 7))
    ∧ (∀ t : TileIx, s.mayWrite m (tilReg t.val 0x58) = true → maskedBit v 0 true →
      ClearLaw (.tilMxClear m t v) s (regRun (tilReg t.val 0x44) 5))
    ∧ (∀ t : TileIx, s.mayWrite m (tilReg t.val 0xA0) = true → maskedBit v 0 true →
      ClearLaw (.selClear m t v) s (regRun (tilReg t.val 0x84) 7))
    ∧ (∀ c : ClusterIx, s.mayWrite m (cluReg c.val 0x400) = true → maskedBit v 1 true → unmaskedBit v 0 →
      ClearLaw (.gthClear m c v) s (regRun (cluReg c.val 0x408) 10))
    ∧ (s.mayWrite m (MEM + 0x31018) = true → v.getLsbD 0 = true →
      ClearLaw (.memTdClear m v) s (fun a => regRun (MEM + 0x31004) 2 a ∨ regRun (MEM + 0x31010) 2 a))
    ∧ (s.mayWrite m (MEM + 0x20) = true → v.getLsbD 0 = true →
      ClearLaw (.memErrClear m v) s (fun a => a = MEM + 0x14 ∨ ∃ n, n < 16 ∧ (a = memCh n 8 ∨ a = memCh n 12)))
    ∧ (∀ t : TileIx, s.mayWrite m (tilReg t.val 8) = true → maskedBit v 1 true → ¬ maskedBit v 0 true →
      YieldsSome (.tileCounterClear m t v) s (fun d =>
        d.RegsAgreeOff s.dev (regRun (tilReg t.val 0xC) 3) ∧ (∀ a, regRun (tilReg t.val 0xC) 3 a → d.rr a = 0)
        ∧ (∀ n c, (s.dev.seat t.val).runSince = some (n, c) →
            d.seat t.val = { s.dev.seat t.val with runSince := some (n, s.dev.qcyc) })
        ∧ (∀ u, u ≠ t.val → d.seat u = s.dev.seat u) ∧ { d with regs := s.dev.regs, seats := s.dev.seats } = s.dev))
    ∧ (∀ q : Quad, s.mayWrite m (qdrReg q.val 0x82C) = true → maskedBit v 0 true →
      YieldsSome (.cmpClear m q v) s (fun d =>
        d.RegsAgreeOff s.dev (regRun (qdrReg q.val 0x810) 7) ∧ (∀ a, regRun (qdrReg q.val 0x810) 7 a → d.rr a = 0)
        ∧ (∀ pack, d.pipe q.val pack = { s.dev.pipe q.val pack with inRest := 0, outRest := 0 })
        ∧ { d with regs := s.dev.regs, pipes := s.dev.pipes } = s.dev))

/-- Writes of a register by address and width (R121, R126): a 4-byte aligned write is one register write, an 8-byte aligned one
two, the low one first; any other width or alignment sets PARTIAL_WRITE and writes nothing; an address that leads nowhere sets
DECODE_ERR. A held field of a disabled block takes the value, that of an enabled one keeps its own and sets WRITE_REFUSED: said for
the setup registers of the phase tracker. -/
def Obligations.RegisterWrites : Prop :=
  ∀ (s : State) (a : BitVec 48) (w : BitVec 8) (v : DWord), s.running = true →
    (globalReg a.toNat →
      exec (.registerWrite .caretaker a 4 v) s = .next ((s.setDev (fun d => d.regWrite a.toNat (v.setWidth 32))).settle))
    ∧ (globalReg a.toNat → ¬ (w.toNat = 4 ∧ a.toNat % 4 = 0) → ¬ (w.toNat = 8 ∧ a.toNat % 8 = 0) →
      LeavesSome (.registerWrite .caretaker a w v) s (fun d =>
        d.rbit (GLB + 4) 1 = true ∧ d.mem = s.dev.mem
        ∧ d.RegsAgreeOff s.dev (fun b => b = GLB + 4 ∨ b = GLB + 0x20 ∨ b = GLB + 0x24 ∨ b = GLB + 0x28)))
    ∧ (s.dev.target a.toNat = .nothing →
      LeavesSome (.registerWrite .caretaker a w v) s (fun d => d.rbit (GLB + 4) 0 = true ∧ d.mem = s.dev.mem))
    ∧ (∀ o, (o = 0xC ∨ o = 0x10) → a.toNat = PHT + o →
      (s.dev.rbit PHT 31 = false →
        Yields (.registerWrite .caretaker a 4 v) s
          (if s.dev.rr (PHT + o) = v.setWidth 32 then s.dev else s.dev.wr (PHT + o) (v.setWidth 32)))
      ∧ (s.dev.rbit PHT 31 = true →
        Yields (.registerWrite .caretaker a 4 v) s (s.dev.wbit (PHT + 8) 31 true)))

/-- The single-bit window (R129): a write of bit b of a register whose bits are live changes that bit alone; of a held field of an
enabled block, none, and WRITE_REFUSED is set. A tutor does not reach the window. -/
def Obligations.SingleBitWrites : Prop :=
  ∀ (s : State) (b : Nat) (v : Word), s.running = true → b < 32 →
    (∀ a : BitVec 48, a.toNat = BITW + (MEM + 0x10 - GLB) / 4 * 128 + 4 * b →
      YieldsSome (.bitAliasWrite .caretaker a 4 v) s (fun d =>
        (∀ i, i < 32 → d.rbit (MEM + 0x10) i = if i = b then v.getLsbD 0 else s.dev.rbit (MEM + 0x10) i)
        ∧ d.RegsAgreeOff s.dev (· = MEM + 0x10) ∧ d.SameButRegs s.dev))
    ∧ (∀ a : BitVec 48, a.toNat = BITW + (PHT + 0xC - GLB) / 4 * 128 + 4 * b → s.dev.rbit PHT 31 = true →
      Yields (.bitAliasWrite .caretaker a 4 v) s (s.dev.wbit (PHT + 8) 31 true))
    ∧ (∀ (a : BitVec 48) (w : BitVec 8), exec (.bitAliasWrite .tutor a w v) s = .next s)

/-- The SRAM aperture and BAR4 (R124, R125): bytes that the host may reach are written, or answered; of a range with a byte it may
not reach, BAR4 writes nothing and sets BAR4_DENY, and the aperture leaves that byte and sets APT_DENY. -/
def Obligations.HostWindows : Prop :=
  ∀ (s : State) (data : Bytes), s.hostUp = true → data ≠ [] →
    (∀ off : BitVec 24, off.toNat + data.length ≤ 2 ^ 24 →
      let a := s.dev.apertureAddr off.toNat
      isSram a = true → (∀ i, i < data.length → canon (a + i) = a + i) →
      ((∀ i, i < data.length → s.dev.sramVisible (a + i) = true) →
        YieldsSome (.apertureWrite off data) s (fun d => d.mem = s.dev.mem.writeN a data ∧ { d with mem := s.dev.mem } = s.dev))
      ∧ ((∃ i, i < data.length ∧ s.dev.sramVisible (a + i) = false) →
        YieldsSome (.apertureWrite off data) s (fun d => d.rbit (GLB + 4) 3 = true
          ∧ ∀ b, (b < a ∨ a + data.length ≤ b ∨ s.dev.sramVisible b = false) → d.mem.read b = s.dev.mem.read b)))
    ∧ (∀ off : BitVec 48, off.toNat + data.length ≤ s.dev.bar4Size →
      let a := s.dev.bar4Addr off.toNat
      (∀ i, i < data.length → (s.dev.setOf (a + i)).isSome) →
      ((∀ i, i < data.length → s.dev.dramVisible (a + i) = true) →
        YieldsSome (.bar4Access true off data.length data) s (fun d => d.mem = s.dev.mem.writeN a data ∧ d.sent = s.dev.sent)
        ∧ (s.dev.lines = [] → Yields (.bar4Access false off data.length []) s
            (s.dev.emit (.readData (s.dev.mem.readN a data.length)))))
      ∧ ((∃ i, i < data.length ∧ s.dev.dramVisible (a + i) = false) →
        YieldsSome (.bar4Access true off data.length data) s (fun d => d.mem = s.dev.mem ∧ d.rbit (GLB + 4) 2 = true)))

/-- Reads (R122, R452): a read of a _LO register answers it and copies its partner, whose next read by the same master answers the
copy; a read of another register answers it; a read of PHT_AUX_CAP_TB clears CAP_NEW. -/
def Obligations.RegisterReads : Prop :=
  ∀ (s : State) (a : BitVec 48), s.running = true → globalReg a.toNat →
    (isLo a.toNat = true →
      Leaves (.loRead .caretaker false a 4) s
        { s.dev with
          host := { s.dev.host with holdCare := some (a.toNat + 4, BitVec.ofNat 32 (s.dev.regView (a.toNat + 4))) }
          sent := s.dev.sent ++ [.readData (leB 4 (s.dev.regView a.toNat))] })
    ∧ (∀ h, isLo a.toNat = false → s.dev.host.holdCare = some (a.toNat, h) →
      Leaves (.loRead .caretaker false a 4) s
        { s.dev with host := { s.dev.host with holdCare := none }, sent := s.dev.sent ++ [.readData (leB 4 h.toNat)] })
    ∧ (isLo a.toNat = false → (∀ h, s.dev.host.holdCare ≠ some (a.toNat, h)) → a.toNat ≠ PHT + 0x50 →
      Leaves (.loRead .caretaker false a 4) s (s.dev.emit (.readData (leB 4 (s.dev.regView a.toNat)))))
    ∧ ((∀ h, s.dev.host.holdCare ≠ some (PHT + 0x50, h)) →
      Leaves (.auxCapTbRead .caretaker) s
        ((s.dev.wbit (GLB + 0x104) 0 false).emit (.readData (leB 4 (s.dev.regView (PHT + 0x50))))))
    ∧ (s.hostUp = true → (∀ h, s.dev.host.holdHost ≠ some (PHT + 0x50, h)) →
      Leaves (.auxCapTbRead .host) s
        ((s.dev.wbit (GLB + 0x104) 0 false).emit (.readData (leB 4 (s.dev.regView (PHT + 0x50))))))

/-! Bells, phase tracker, pins, timetable -/

/-- Where bells come from (R24, R385): a bell that the tracker accepts from STEP_IN, AUX_IN in its STEP_SOURCE role, the doorbell
register or a BELL flit of the origin it follows is an accepted bell of that source, sampled now; the wrong edge, or an AUX_IN that
captures, is none.
Which bells are accepted (R24 to R27): while the tracker is enabled and the source on, the active source's bell, or any bell
with no active source or in HOLDOVER, counts one step when it comes no sooner than PHT_MIN_GAP after the last, and is a runt when it
comes sooner; a Miohar bell message brings its own count, which must be later than the step, and is a duplicate otherwise. A bell of
another source that takes nothing over is a shadow bell, one of a source that is off or of a disabled tracker is none. (The bells of
the one cycle in which HOLDOVER ended are left to R27's order of priority.) -/
def Obligations.Bells : Prop :=
  (∀ (s : State) (step : Tag) (jump : Bool), s.running = true →
    (∀ falling : Bool, let d := s.dev.pinEdge 0 falling
      (falling = d.rbit (PHT + 4) 8 → d.judge 1 none = .accept step jump →
        Yields (.stepInEdge falling) s (d.acceptBell 1 step jump s.dev.now (s.dev.now + 1)))
      ∧ (falling ≠ d.rbit (PHT + 4) 8 → Yields (.stepInEdge falling) s d))
    ∧ (∀ falling : Bool, let d := s.dev.pinEdge 2 falling
      (falling = d.rbit (PHT + 4) 8 → d.pinRole 2 = 1 → d.judge 2 none = .accept step jump →
        Yields (.auxInEdge falling) s (d.acceptBell 2 step jump s.dev.now (s.dev.now + 1)))
      ∧ (falling = d.rbit (PHT + 4) 8 → d.pinRole 2 = 2 → Yields (.auxInEdge falling) s d.capture))
    ∧ (∀ m v, s.mayWrite m (PHT + 0x40) = true → s.dev.judge 4 none = .accept step jump →
        Yields (.phtBellDb m v) s (s.dev.acceptBell 4 step jump s.dev.now (s.dev.now + 1)))
    ∧ (∀ (port : Fin 4) (origin : BitVec 11) (count : Tag), (s.dev.port port.val).state = 5 →
      let d := s.dev.forwardBell port.val origin.toNat count.toNat
      origin.toNat = d.rf (PHT + 4) 26 16 → d.judge 3 (some count) = .accept step jump →
        Yields (.bellFlit port origin count) s (d.acceptBell 3 step jump d.now (d.now + 1))))
  ∧ (∀ (d : Dev) (src : Nat), d.rbit PHT 31 = true → d.srcOn src = true →
    (d.pht.heldAt = some d.now → d.pht.active ≤ src) →
    ((d.pht.mode = .holdover ∨ d.activeNow = 0 ∨ src = d.activeNow) →
      ((∀ l, d.pht.lastAcc = some l → d.rn (PHT + 0x10) ≤ d.now - l) →
        d.judge src none = .accept (d.pht.step + 1) false
        ∧ (∀ n : Tag, d.pht.step < n → d.judge src (some n) = .accept n (decide (n ≠ d.pht.step + 1))))
      ∧ (∀ l, d.pht.lastAcc = some l → d.now - l < d.rn (PHT + 0x10) →
        d.judge src none = .runt ∧ ∀ n : Tag, d.pht.step < n → d.judge src (some n) = .runt)
      ∧ (∀ n : Tag, n ≤ d.pht.step → d.judge src (some n) = .dup))
    ∧ (d.pht.mode ≠ .holdover → d.activeNow ≠ 0 → src ≠ d.activeNow → d.takesOver src = false → d.judge src none = .shadow))
  ∧ (∀ (d : Dev) (src : Nat) (count : Option Tag), (d.rbit PHT 31 = false ∨ d.srcOn src = false) → d.judge src count = .ignored)

/-- An accepted bell, no Plat in force or waiting (R29, R48, R106): the step counter takes the new step, the source is active, the
sampling count and the origin of the phase are kept, and every tutor has its BELL event. -/
def Obligations.AcceptedBellStepsTheCounter : Prop :=
  ∀ (d : Dev) (src : Nat) (step : Tag) (jump : Bool) (tk origin : Nat),
    d.plt.staged = none → d.plt.seated = false →
    let e := d.acceptBell src step jump tk origin
    e.pht.step = step ∧ e.pht.active = src ∧ e.pht.lastAcc = some tk ∧ e.pht.origin = some origin
    ∧ ∀ t, t < 1238 → (e.tutor t).events.getLsbD 0 = true

/-- The loop of R28: a bell in the window moves X and P by the two rounded corrections and counts towards LOCK; outside it an
UNLOCKED tracker measures the period anew, and a TRACKING one counts an outlier.
The tracker's expiries and its enable (R23, R27, R30): at the end of a window in which no bell of the active source was sampled, a
shadow bell that is no runt is adopted as a bell of its source, and with none to adopt a TRACKING tracker enters HOLDOVER; HOLDOVER ends in UNLOCKED after PHT_HOLD periods; enabling starts at PHT_STEP_SET and PHT_PERIOD_SEED, UNLOCKED;
disabling makes the phase read 0. -/
def Obligations.PhaseTracker : Prop :=
  (∀ (h : Pht) (c : LoopCfg) (t : Nat), h.mode ≠ .holdover → h.havePrev = true →
    let r := (t : Int) * 4096 - (h.x + h.p)
    let u := h.update c t
    (h.p ≠ 0 → r.natAbs ≤ c.win * 4096 →
      u.x = h.x + h.p + rne r c.a ∧ u.p = h.p + rne r c.b
      ∧ (h.mode = .unlocked → h.inwin + 1 < c.lock → u.mode = .unlocked ∧ u.inwin = h.inwin + 1)
      ∧ (h.mode = .unlocked → c.lock ≤ h.inwin + 1 → 0 < c.loss → u.mode = .tracking))
    ∧ ((h.p = 0 ∨ c.win * 4096 < r.natAbs) → u.x = (t : Int) * 4096
      ∧ (h.mode = .unlocked → 0 < c.lock → u.p = ((t : Int) - h.tPrev) * 4096 ∧ u.mode = .unlocked)
      ∧ (h.mode = .tracking → u.p = h.p
          ∧ u.mode = (if c.loss ≤ h.outliers + 1 then .unlocked else .tracking)))
    ∧ u.tPrev = t ∧ u.step = h.step)
  ∧ (∀ s : State,
    (s.running = true → s.dev.rbit PHT 31 = true → s.dev.hasPrediction = true → s.dev.windowPassed = true →
      s.dev.pht.examined = false → s.dev.pht.activeSeen = false → s.dev.pht.mode = .tracking → s.dev.adoptable = none →
      YieldsSome .lockWindowExpiry s (fun d =>
        d.pht = { s.dev.pht with examined := true, mode := .holdover, holdSince := s.dev.now } ∧ d.mem = s.dev.mem))
    ∧ (s.running = true → s.dev.rbit PHT 31 = true → s.dev.hasPrediction = true → s.dev.windowPassed = true →
      s.dev.pht.examined = false → s.dev.pht.activeSeen = false → ∀ src t, s.dev.adoptable = some (src, t) →
      s.dev.tooSoonAt t = false →
      Yields .lockWindowExpiry s (s.dev.acceptBell src (s.dev.pht.step + 1) false t s.dev.now))
    ∧ (s.running = true → s.dev.rbit PHT 31 = true → s.dev.pht.mode = .holdover →
      (s.dev.rf (PHT + 0x14) 15 0 : Int) * s.dev.pht.p ≤ ((s.dev.now - s.dev.pht.holdSince : Nat) : Int) * 4096 →
      YieldsSome .holdLimitExpiry s (fun d =>
        d.pht = { s.dev.pht with mode := .unlocked, inwin := 0, outliers := 0, havePrev := false }
        ∧ d.rbit (PHT + 8) 6 = true ∧ d.mem = s.dev.mem))
    ∧ (∀ m v, s.mayWrite m PHT = true → v.getLsbD 31 = true → s.dev.rbit PHT 31 = false →
      YieldsSome (.phtEnable m v) s (fun d =>
        d.pht.step.toNat = s.dev.rn2 (PHT + 0x30) % 2 ^ 48 ∧ d.pht.p = (s.dev.rn2 (PHT + 0x20) % 2 ^ 48 : Nat)
        ∧ d.pht.mode = .unlocked ∧ d.pht.havePrev = false ∧ d.pht.active = 0 ∧ d.pht.origin = none
        ∧ d.rbit PHT 31 = true ∧ d.RegsAgreeOff s.dev (· = PHT)))
    ∧ (∀ m v, s.mayWrite m PHT = true → v.getLsbD 31 = false → s.dev.rbit PHT 31 = true → s.dev.plt.staged = none →
      YieldsSome (.phtDisable m v) s (fun d =>
        d.pht = { s.dev.pht with origin := none } ∧ d.rbit PHT 31 = false
        ∧ d.RegsAgreeOff s.dev (fun a => a = PHT ∨ a = PHT + 8))))

/-- Pins (R441, R449 to R453): an edge at a pin that holds CAPTURE stores step, phase and time and sets CAP_NEW; PIN_ROLE_GRANT gives
every pin its granted role and marks the requests that were not; the ends of pulses; ALERT# is low in reset and while the grace timer
runs or the escalation stage is not NONE, and STEP_OUT drives nothing in reset. -/
def Obligations.Pins : Prop :=
  ∀ s : State, s.running = true →
    (∀ (pin : Fin 4) (falling : Bool), let k := 3 + pin.val
      let d := s.dev.pinEdge k falling
      (d.pinRole k = 2 → falling = d.rbit (pinCfg k) 9 →
        YieldsSome (.gpioEdge pin falling) s (fun e =>
          e.rn2 (PHT + 0x44) = s.dev.step ∧ e.rn (PHT + 0x4C) = s.dev.phase ∧ e.rn (PHT + 0x50) = s.dev.now % 2 ^ 32
          ∧ e.rbit (GLB + 0x104) 0 = true ∧ e.mem = s.dev.mem))
      ∧ ((d.pinRole k ≠ 2 ∨ falling ≠ d.rbit (pinCfg k) 9) → Yields (.gpioEdge pin falling) s d))
    ∧ YieldsSome .pinRoleGrant s (fun d => ∀ k, 2 ≤ k → k ≤ 6 →
        d.pinRole k = s.dev.grants k
        ∧ (s.dev.pinReq k ≠ 0 → s.dev.grants k ≠ s.dev.pinReq k + 1 → d.rbit (pinCfg k) 31 = true))
    ∧ (∀ (pin : Fin 4) (t : Nat), let k := 3 + pin.val
      tfind s.dev.pulses k = some t → t ≤ s.dev.now →
      YieldsSome (.gpioPulseEnd pin) s (fun d =>
        d.rbit (pinCfg k) 8 = false ∧ tfind d.pulses k = none ∧ d.RegsAgreeOff s.dev (· = pinCfg k)
        ∧ (s.dev.pinRole k = 4 → s.dev.rbit (pinCfg k) 8 = true → d.sent = s.dev.sent ++ [.pin k false])))
    ∧ (∀ t, s.dev.pht.stepOutUntil = some t → t ≤ s.dev.now →
      Yields .stepOutPulseEnd s
        { s.dev with sent := s.dev.sent ++ [.stepOut false], pht := { s.dev.pht with stepOutUntil := none } })
    ∧ (s.alertLow = true ↔ s.dev.flt.timerRun = true ∨ s.dev.flt.stage ≠ 0)
    ∧ (∃ t, exec (.modResetPin true) s = .next t ∧ t.alertLow = true ∧ t.stepOutLevel = none ∧ ∀ k, t.gpioLevel k = none)

/-- The timetable (R31 to R34, R459): arming an entry sets its target to the step plus its offset; disarming clears VALID; an entry
that is due on time, none due before it, acts for its target and is marked FIRED: it is done, or its target moves on by its
interval.
What timetable actions do (R33): a snapshot, an armed fragment, a drill signal, an event, a GPIO drive. -/
def Obligations.Timetable : Prop :=
  (∀ (s : State) (m : Master) (n : BitVec 8) (v : Word), let b := ttbEnt n.toNat 4
    (s.mayWrite m b = true → v.getLsbD 31 = true → bits v.toNat 23 16 ≤ 10 → s.dev.rbit b 31 = false → s.dev.rbit TTB 31 = false →
      YieldsSome (.ttbEntryArm m n v) s (fun d =>
        d.ttValid n.toNat = true ∧ d.rf b 23 16 = bits v.toNat 23 16 ∧ d.rf b 15 8 = bits v.toNat 15 8
        ∧ d.ttTarget n.toNat = s.dev.pht.step + BitVec.ofInt 48 (sx 16 (s.dev.rf (ttbEnt n.toNat 0) 15 0))
        ∧ d.SameButRegs s.dev))
    ∧ (s.mayWrite m b = true → v.getLsbD 31 = false →
      YieldsSome (.ttbEntryDisarm m n v) s (fun d =>
        d.ttValid n.toNat = false ∧ d.RegsAgreeOff s.dev (· = b) ∧ d.SameButRegs s.dev))
    ∧ (s.mayWrite m TTB = true → (∀ k, k < 256 → s.dev.ttDue k = false) →
      YieldsSome (.ttbEnable m v) s (fun d =>
        d.rbit TTB 31 = v.getLsbD 31 ∧ d.RegsAgreeOff s.dev (· = TTB) ∧ d.SameButRegs s.dev))
    ∧ (s.running = true → s.dev.ttOnTime n.toNat = true →
      (∀ k, k < 256 → s.dev.ttOnTime k = true →
        s.dev.ttPhase n.toNat < s.dev.ttPhase k ∨ (s.dev.ttPhase n.toNat = s.dev.ttPhase k ∧ n.toNat ≤ k)) →
      let d := s.dev.ttAction n.toNat (s.dev.ttTarget n.toNat) false
      Yields (.ttbEntryFire n) s (d.ttFired n.toNat false false)
      ∧ (d.ttFired n.toNat false false).rbit b 28 = true
      ∧ (d.rbit b 30 = false → (d.ttFired n.toNat false false).ttValid n.toNat = false)
      ∧ (d.rbit b 30 = true → (d.ttFired n.toNat false false).ttTarget n.toNat
          = d.ttTarget n.toNat + BitVec.ofNat 48 (d.rf b 15 8 + 1))))
  ∧ (∀ (d : Dev) (n : Nat) (t : Tag) (late : Bool), let arg := d.rn (ttbEnt n 8)
    (d.rf (ttbEnt n 4) 23 16 = 2 → d.ttAction n t late = d.snapshot)
    ∧ (d.rf (ttbEnt n 4) 23 16 = 4 → (d.ttAction n t late).plt.armed = d.plt.armed ++ [(some n, arg % 65536)])
    ∧ (d.rf (ttbEnt n 4) 23 16 = 6 → ∀ u, denseTutor (bits arg 13 12 * 0x1000 + bits arg 10 0) = some u →
        ((d.ttAction n t late).tutor u).events = (d.tutor u).events ||| (1#32 <<< (16 + bits arg 19 16)))
    ∧ (d.rf (ttbEnt n 4) 23 16 = 7 → d.ringEn (arg % 2 ^ 14) = true → d.ringKind (arg % 2 ^ 14) = 2 →
        ∃ e, (d.ttAction n t late).host.events = d.host.events ++ [e] ∧ e.ring = arg % 2 ^ 14
          ∧ fld e.body 0 1 = 1 ∧ fld e.body 16 4 = arg ∧ fld e.body 20 1 = b2n late)
    ∧ (d.rf (ttbEnt n 4) 23 16 = 8 → d.pinRole (3 + arg % 4) = 4 → bits arg 9 8 ≤ 1 →
        (d.ttAction n t late).rbit (pinCfg (3 + arg % 4)) 8 = (bits arg 9 8 == 1)))

/-! Emission, statistics, attendance -/

/-- ENCODE (R40, R42): a task of a batch makes the tokens of its input, which are appended to the batch of its tag at its release; the
first task of a tag opens its batch in a slot of the stream's output allocation. LENGTH 0 makes none, an input that is not what INPUT
says ends with FORMAT, an ARG other than 0 with DESC_INVALID; lookup work puts out its keys and tokens on the route to its port.
EMISSION_END (R41): the body and its trailer, with status, tokens and CRC-32C, go to the completion ring, to the role of this station
or to the station of the stream's route; a station that no message reaches ends the emission and is counted. -/
def Obligations.EncodeAndEmission : Prop :=
  ∀ s : State, s.running = true →
    (∀ (seat : Seat) (q : Nat) (t : Task) (d : Dev) (raw : Bytes),
      s.dev.atWork seat.val 11 = some (q, t) → bit t.arg 31 = false → s.dev.operandData t 0 = (d, some raw) →
      let p := t.params
      let n := fld p 2 1
      let none_ : EncOut := { stream := n, data := [], positions := 0, tokens := 0, sequences := 0, corrupt := false, subst := false }
      let made : Option EncOut := if ((t.operand 0).map Pkt.length).getD 0 = 0 then some none_ else d.encInput p t.tag t.subst raw
      (t.tag ≠ BitVec.allOnes 48 → t.arg = 0 →
        (∀ o, made = some o → ((d.emitSt n).batch t.tag).isSome = true →
          Yields (.encodeTask seat) s ((d.workDone q t.uid .ok []).updTask q t.uid (fun t => { t with enc := some o })))
        ∧ (∀ o sp a e, made = some o → (d.emitSt n).batch t.tag = none → s.dev.laneBefore q t = false → d.encParams n = some sp →
          d.flt.aborted.contains t.tag = false → d.takeSlot (fld sp.params 8 4) (fld sp.params 12 4) = some (a, e) →
          YieldsSome (.encodeTask seat) s (fun e =>
            (e.emitSt n).batch t.tag = some { tag := t.tag, slot := a, input := fld sp.params 3 1, tokenBytes := fld sp.params 16 4 }
            ∧ e.task q t.uid = some { t.did .ok [] with enc := some o } ∧ e.mem = d.mem))
        ∧ (made = none → YieldsSome (.encodeTask seat) s (fun e => e.task q t.uid = some (t.did .format []) ∧ e.mem = d.mem)))
      ∧ (t.tag ≠ BitVec.allOnes 48 → t.arg ≠ 0 → Yields (.encodeTask seat) s (s.dev.workFail q t.uid .descInvalid))
      ∧ (∀ r b key rs e, t.tag = BitVec.allOnes 48 → t.portRoute = some r → fld p 6 2 ≠ 0xFFFF →
        d.taskBatch t raw (d.readBatch raw) = some b → b.col (fld p 6 2) = some key → (key.type = 4 ∨ key.type = 8) →
        key.flat b.samples = true → (encFields p).all (·.accepts b) = true →
        d.place (fld p 8 4) (fld p 12 4) [lookupRegion p b key t.tag] = .done rs e →
        Yields (.encodeTask seat) s (e.workDone q t.uid .ok (rs.map (fun x => { x with only := some r.id })))))
    ∧ (∀ n : Fin 64,
      (∀ (m : Emission) (r : Route), (s.dev.emitSt n.val).cur = some m → m.sentAll = false → s.dev.emitRoute n.val = some r →
        let body := match m.addr with | some a => s.dev.mem.readN a m.length | none => m.head
        let tr := leB 1 m.status.code ++ leB 1 (b2n m.packed) ++ zeros 2 ++ leB 4 m.tokens ++ leB 4 (crc32c body).toNat ++ zeros 4
        (r.dkind = 4 →
          YieldsSome (.emissionEnd n) s (fun d =>
            (d.emitSt n.val).cur = some { m with sentAll := true } ∧ d.mem = s.dev.mem ∧ d.regs = s.dev.regs
            ∧ ∃ x, d.host.deliveries = s.dev.host.deliveries ++ [x] ∧ x.ring = r.dest ∧ x.stream = some n.val ∧ x.status = m.status
              ∧ (∀ a, m.addr = some a → x.addr = a ∧ x.length = m.length) ∧ (m.addr = none → x.length = 0) ∧ x.head = m.head
              ∧ x.tail = tr))
        ∧ (∀ a, r.dkind = 1 → m.addr = some a → (s.dev.emitSt n.val).due = [] → m.length + 16 ≤ s.dev.emissionRoom n.val m.packed →
          YieldsSome (.emissionEnd n) s (fun d =>
            let k := r.dest % 8
            (d.emitSt n.val).cur = none ∧ d.mem.readN (a + m.length) 16 = tr
            ∧ ∃ port, (d.quad k).inbound = (s.dev.quad k).inbound ++ [(port,
                { pkt := mkPkt k r.role 0 0xFFFF r.lane r.opcount r.slot r.pri m.tag.toNat a (m.length + 16) r.arg
                  sender := 0xE000 + n.val })]))
        ∧ (r.dkind = 3 → s.dev.sendable r.dest = none → (s.dev.emitSt n.val).due = [] →
          YieldsSome (.emissionEnd n) s (fun d => (d.emitSt n.val).cur = none ∧ d.mem = s.dev.mem
            ∧ d.rn (LNK + 0x3C) = min (s.dev.rn (LNK + 0x3C) + 1) (2 ^ 32 - 1)))
        ∧ (∀ p, r.dkind = 3 → s.dev.sendable r.dest = some p →
          YieldsSome (.emissionEnd n) s (fun d => (d.emitSt n.val).cur = some { m with sentAll := true } ∧ d.mem = s.dev.mem
            ∧ d.fab.waits = s.dev.fab.waits ++ [(s.dev.fab.nextMsg, .emission n.val, s.dev.now)])))
      ∧ (∀ m, (s.dev.emitSt n.val).cur = some m → m.sentAll = true → Yields (.emissionEnd n) s s.dev))

/-- Statistics (R43, R45, R46, R409): a task of a unit whose batch its entries can observe puts its values into the banks of its tag and
is done; a record that must wait leaves everything but the wait as it is, an input that is no batch ends with FORMAT, lookup work
observes nothing. A tag that has passed with no earlier tag open is sealed, and its record is the standby record of each of its
columns; behind an earlier open tag it is not. An aborted tag is sealed with the record of the newest sealed tag below it, or the seed's.
The values of a record (R46): counts of values and nulls, least and greatest value, and the sum, exact while it fits.
Attendance (R102): a snapshot copies the live counters with the step and phase of now, and copying lasts until its end is told; then
both banks read their new values. -/
def Obligations.Statistics : Prop :=
  (∀ (s : State) (unit : ClusterIx), s.running = true →
    (∀ (q : Nat) (t : Task), s.dev.atWork (1224 + unit.val) 14 = some (q, t) →
      let streams := s.dev.statStreams (colOps t.params)
      (t.tag = BitVec.allOnes 48 → Yields (.statsObserve unit) s (s.dev.workDone q t.uid .ok []))
      ∧ (t.tag ≠ BitVec.allOnes 48 → tfind s.dev.fb.waits unit.val = none →
        ((∃ n ∈ streams, (s.dev.fbTags unit.val n).stalls t.tag = true) →
          Yields (.statsObserve unit) s
            { s.dev with fb := { s.dev.fb with waits := tput s.dev.fb.waits unit.val s.dev.qcyc } })
        ∧ (∀ d1 raw, (∀ n ∈ streams, (s.dev.fbTags unit.val n).stalls t.tag = false) → s.dev.operandData t 0 = (d1, some raw) →
          (d1.inputBatch t.params raw = none → Yields (.statsObserve unit) s (d1.workFail q t.uid .format))
          ∧ (∀ b d3, d1.inputBatch t.params raw = some b →
            (∀ n ∈ streams, (d1.fbTags unit.val n).sealed_.contains t.tag = false
              ∧ (d1.fbTags unit.val n).aborted.contains t.tag = false) →
            (∀ o ∈ colOps t.params, ∃ c, tfind d1.fb.cols (bits o.p0 12 0) = some c ∧ c.void.contains t.tag = false) →
            observeOps unit.val t.params t.tag b (colOps t.params)
              (streams.foldl (fun d n => d.openTagAt unit.val n t.tag) d1) = (d3, true) →
            Yields (.statsObserve unit) s (d3.workDone q t.uid .ok [])))))
    ∧ (∀ (n : Fin 64) (b : Tag), s.dev.fbCols unit.val n.val ≠ [] →
      let x := s.dev.fbTags unit.val n.val
      x.aborted = [] → x.sealed_.contains b = false →
      (∀ rest, (∀ o ∈ rest, b < o.1 ∧ o.2 = false) → (x.opened = rest ∨ ∃ f, x.opened = (b, f) :: rest) →
        YieldsSome (.tagSeal unit n b) s (fun d =>
          (d.fbTags unit.val n.val).sealed_ = b :: x.sealed_ ∧ (d.fbTags unit.val n.val).opened = rest
          ∧ ∀ c ∈ s.dev.fbCols unit.val n.val, c.2.void.contains b = false → d.fb.changed = true
            ∧ ∃ r, tfind d.fb.standby c.1 = some r ∧ r.tag = b
              ∧ (∀ k, s.dev.bankRec c.1 b = some k → r = { k with ext := r.ext }) ∧ (s.dev.bankRec c.1 b = none → r.count = 0)))
      ∧ (∀ a rest, x.opened = (a, false) :: rest → a < b → YieldsSome (.tagSeal unit n b) s (fun d =>
          (d.fbTags unit.val n.val).sealed_ = x.sealed_ ∧ d.fb.standby = s.dev.fb.standby)))
    ∧ (∀ (n : Fin 64) (b : Tag), s.dev.fbCols unit.val n.val ≠ [] → (s.dev.fb.cols.map (·.1)).Nodup →
      let x := s.dev.fbTags unit.val n.val
      x.aborted = [b] →
      (x.opened = [] → YieldsSome (.abortSeal unit n) s (fun d =>
        (d.fbTags unit.val n.val).sealed_ = b :: x.sealed_ ∧ (d.fbTags unit.val n.val).aborted = []
        ∧ ∀ c ∈ s.dev.fbCols unit.val n.val, c.2.void.contains b = false →
          (∀ t r, x.sealed_.find? (fun t => t < b) = some t → s.dev.sealedRec c.1 t = some r →
            ∃ e, tfind d.fb.standby c.1 = some { r with tag := b, ext := e })
          ∧ (x.sealed_.find? (fun t => t < b) = none → ∃ e, tfind d.fb.standby c.1 = some { seedRec c.2.seed with tag := b, ext := e })))
      ∧ (∀ a rest, x.opened = (a, false) :: rest → a < b → YieldsSome (.abortSeal unit n) s (fun d =>
          (d.fbTags unit.val n.val).sealed_ = x.sealed_ ∧ (d.fbTags unit.val n.val).aborted = [b]
          ∧ d.fb.standby = s.dev.fb.standby))))
  ∧ (∀ (d : Dev) (col unit : Nat) (b : Tag) (vs : List (Option Int)) (r : FbRec), d.bankRec col b = some r →
    (d.observe col unit b vs).bankRec col b
      = some (vs.foldl (fun r v => match v with | some v => r.add v | none => r.addNull) r))
  ∧ (∀ (r : FbRec) (vs : List (Option Int)),
    let e := vs.foldl (fun r v => match v with | some v => r.add v | none => r.addNull) r
    e.count = r.count + (vs.filter (·.isSome)).length ∧ e.nulls = r.nulls + (vs.filter (·.isNone)).length
    ∧ (∀ v, some v ∈ vs → e.min ≤ v ∧ v ≤ e.max) ∧ e.min ≤ r.min ∧ r.max ≤ e.max
    ∧ (e.sumSat = false → e.sum = r.sum + (vs.map (fun v => v.getD 0)).sum))
  ∧ (∀ s : State,
    (∀ m v, s.mayWrite m (ATT + 0x20) = true →
      YieldsSome (.attSnap m v) s (fun d =>
        d.att.snapStep = s.dev.pht.step ∧ d.att.snapPhase = s.dev.phase ∧ d.att.snapValid = true
        ∧ d.loading d.att.snapLoad = true
        ∧ (∀ off, (∀ q, q < 8 → off ≠ attQ q 0x24) → tget 0 d.att.snap off = tget 0 d.att.live off)
        ∧ (∀ q, q < 8 → (s.dev.quad q).occ ≠ 0 → tget 0 d.att.snap (attQ q 0x24) = (s.dev.quad q).occ)
        ∧ d.att.shadow = s.dev.att.shadow ∧ d.mem = s.dev.mem))
    ∧ (s.running = true → YieldsSome .snapshotCopyEnd s (fun d =>
        d = { s.dev with att := d.att } ∧ d.loading d.att.snapLoad = false ∧ d.loading d.att.shadowLoad = false
        ∧ ∀ off, d.bankWord d.att.snapLoad d.att.snapOld d.att.snap off = tget 0 s.dev.att.snap off
          ∧ d.bankWord d.att.shadowLoad d.att.shadowOld d.att.shadow off = tget 0 s.dev.att.shadow off)))

/-! Plat and seating -/

/-- PLAT_LOAD (R69, R71, R73, R74, R150) of a Plat that passes every check but its signature: if the signature verifies, the load
report says so and the Plat is accepted; if not, the load is refused with SIGNATURE. An accepted drill image container waits for
the bell; a fragment with room is kept under its FRAG_ID and the load completes; a full Plat that nothing holds begins seating at
once, any other waits staged, and one staged before it is cancelled. HOLD_SWITCH_CLEAR (R71): with no Plat waiting, PLT_CTL takes
the value; a waiting Plat is seated at once when nothing holds it.
The end of seating (R72): with no task left running the Plat is seated, its digest is kept and no Plat is coming; then a Plat
that waits and is held by nothing follows. RESEAT_OPEN (R77): a re-seated seat whose old task has ended opens. -/
def Obligations.PlatAndSeating : Prop :=
  (∀ s : State,
    (∀ (f : Fetched) (b x : Bytes) (p : Plat), s.running = true → s.dev.AtFront 0 0x41 f b →
      let d := s.dev.taken 0
      let o := originOf 0 f
      let raw := slice x 0 (Dsc.length b)
      Dsc.headOk b = true → zeroAt b 28 4 = true → zeroAt b 40 24 = true → Dsc.length b ≤ 0x10000000 → d.stagingOk = true →
      checkPlat d d.station true raw (Dsc.length b) = .ok p →
      (p.kind = 1 → (tfind d.plt.frags p.fragId).isSome = true ∨ d.plt.frags.length < 64) →
      let v := s.verifyTail [2, 3] raw
      let report (l : Option LoadErr) (id : Nat) := d.emit (.hostWrite (fld b 32 8) (loadReport l id) false)
      let after : Dev := if v.1 then (report none p.id).acceptPlat p o
        else (report (some { status := .signature }) (fld raw 16 8)).complete o none .signature 0
          (if fld raw 6 1 = 1 then fld raw 14 2 else 0)
      exec (.platLoad (some x)) s = .next (State.settle { v.2 with dev := after.skim 0 }))
    ∧ (∀ m v, s.mayWrite m PLT = true → s.dev.plt.staged = none →
      YieldsSome (.holdSwitchClear m v) s (fun d =>
        d.rbit PLT 2 = v.getLsbD 2 ∧ d.rbit PLT 1 = v.getLsbD 1 ∧ d.RegsAgreeOff s.dev (· = PLT) ∧ d.SameButRegs s.dev))
    ∧ (∀ m v p o, s.mayWrite m PLT = true → v.getLsbD 2 = false → s.dev.rbit PLT 2 = true → s.dev.plt.staged = some (p, o) →
      s.dev.plt.seating = false → s.dev.rbit PHT 31 = false →
      Yields (.holdSwitchClear m v) s
        ((s.dev.wr PLT ((s.dev.rr PLT &&& 0xFFFFFFF9#32) ||| (v &&& 6#32))).beginSeating p o false)))
  ∧ (∀ (d : Dev) (p : Plat) (o : Origin),
    (p.kind = 2 → d.acceptPlat p o = { d with plt := { d.plt with containers := d.plt.containers ++ [(p, some o)] } })
    ∧ (p.kind = 1 → ((tfind d.plt.frags p.fragId).isSome = true ∨ d.plt.frags.length < 64) →
        let fs := tput d.plt.frags p.fragId p
        d.acceptPlat p o = ({ d with plt := { d.plt with frags := fs } }.wn (PLT + 0x38) fs.length).complete o none .ok 0 p.fragId)
    ∧ (p.kind = 0 →
        let free := d.plt.seating = false ∧ (d.plt.seated = false ∨ (d.rbit PLT 2 = false ∧ d.rbit PHT 31 = false))
        let old := match d.plt.staged with | some (_, some o') => (d.complete o' none .cancelled 0 0).host.cpls | _ => d.host.cpls
        let e := d.acceptPlat p o
        (free → e.plt.seating = true ∧ e.plt.incoming = some (p, some o) ∧ e.plt.ringWait = true)
        ∧ (¬ free → e.plt = { d.plt with staged := some (p, some o) } ∧ e.rn2 (PLT + 0x10) = p.id % 2 ^ 64
          ∧ e.host.cpls = old)))
  ∧ (∀ s : State, s.running = true →
    (∀ p o, s.dev.plt.incoming = some (p, o) → s.dev.plt.seating = true → s.dev.anyRunning = false →
      ∃ d : Dev, Yields .seatingComplete s d.switchNow
        ∧ d.plt.seated = true ∧ d.plt.seating = false ∧ d.plt.incoming = none ∧ d.plt.ringWait = false ∧ d.plt.frags = []
        ∧ d.plt.digest = Config.sha384 (p.raw.take (p.raw.length - 128)))
    ∧ (∀ (seat : Seat) (g : Option Drill), tfind s.dev.plt.opening seat.val = some g → (s.dev.seat seat.val).slots = [] →
      YieldsSome (.reseatOpen seat) s (fun d =>
        (d.seat seat.val) = { s.dev.seat seat.val with opened := true } ∧ tfind d.plt.opening seat.val = none
        ∧ ∀ t, seatTutor seat.val = some t → (d.tutor t).mode = (if g.isSome then .running else .halted))))

/-! Schedulers -/

/-- A task packet of a new key (R84 to R87): with no packet of its sender held at its port, its entry of the matching store holds the
packet, as received, in its slot, and the packet is no more on its way. The packets held at a port are looked at again in the order
held: the first that may go in goes in, and with none that may all stay (R87).
A packet whose own fields break R84 is put in the lost-and-found queue with DESC_INVALID, one for a seat of another epoch or
role with STALE_SEAT, as received; packets for the seats of the hosts' ports go to quadrant 0's queue (R96, R98). -/
def Obligations.TaskPackets : Prop :=
  (∀ (s : State) (q : Quad) (port : Fin 4), s.running = true →
    let held := (s.dev.quad q.val).held
    (∀ (a : Arrival) (rest : List (Nat × Arrival)), (s.dev.quad q.val).inbound = (port.val, a) :: rest →
      (∀ h ∈ held, h.1 = port.val → h.2.sender ≠ a.sender) → a.refused = none → a.origin = none → NewTask s.dev q.val port.val a →
      YieldsSome (.taskPacket q port 0) s (fun d =>
        (d.quad q.val).inbound = rest ∧ (d.quad q.val).nextUid = (s.dev.quad q.val).nextUid + 1
        ∧ ∃ t ∈ (d.quad q.val).tasks, t.uid = (s.dev.quad q.val).nextUid ∧ t.role = Pkt.role a.pkt ∧ t.lane = Pkt.lane a.pkt
          ∧ t.tag.toNat = Pkt.tag a.pkt ∧ t.opcount = Pkt.opcount a.pkt
          ∧ t.idx.isSome = true ∧ tfind t.slots (Pkt.slot a.pkt) = some a
          ∧ (2 ≤ Pkt.opcount a.pkt → t.phase = .waiting)))
    ∧ (let d := s.dev.accrue q.val
      (∀ pre a rest, held = pre ++ (port.val, a) :: rest →
        (∀ e ∈ pre, e.1 = port.val → (d.takeIn q.val port.val e.2).2 = true) → (d.takeIn q.val port.val a).2 = false →
        let r := (d.takeIn q.val port.val a).1
        Yields (.heldPacketAdmit q port) s (r.setQuad q.val { r.quad q.val with held := pre ++ rest }))
      ∧ ((∀ e ∈ held, e.1 = port.val → (d.takeIn q.val port.val e.2).2 = true) → Yields (.heldPacketAdmit q port) s d)))
  ∧ (∀ (d : Dev) (q : Quad) (port : Nat) (a : Arrival),
    let k := match denseSeat (Pkt.seat a.pkt) with | some n => if 1296 ≤ n then 0 else q.val | none => q.val
    let e := (d.takeIn q.val port a).1
    (d.quad k).laf.length < 1024 →
    (pktOwn q.val a.pkt = false → ∃ x, (e.quad k).laf = (d.quad k).laf ++ [x]
      ∧ (a.pkt.length = 32 → fld x 32 1 = Status.descInvalid.code ∧ slice x 0 32 = a.pkt))
    ∧ (pktOwn q.val a.pkt = true → d.pktFresh a.pkt = false → ∃ x, (e.quad k).laf = (d.quad k).laf ++ [x]
      ∧ (a.pkt.length = 32 → fld x 32 1 = Status.staleSeat.code ∧ slice x 0 32 = a.pkt)))

/-- TASK_DISPATCH (R40, R88 to R90, R103, R109): the one ready task goes to the seat that the rotation chooses: with no drill it runs
there with the seat's parameters, with a drill it is offered, each operand packet with the entry's index; with no seat to choose it
stays, and ROLE_WAIT says whether no seat of the quadrant holds its role. AGE_PROMOTE (R89): a task that has waited long enough goes
one priority up. -/
def Obligations.Dispatch : Prop :=
  ∀ (s : State) (q : Quad), s.running = true →
    (∀ t : Task, s.dev.rbit (qdrReg q.val 0) 0 = true → s.dev.flt.stage = 0 → s.dev.plt.seating = false →
      let x := s.dev.quad q.val
      let d := (s.dev.setQuad q.val { x with extra := x.extra + 1 }).accrue q.val
      let after (e : Dev) (w : Bool) := ((e.promoteAll.wbit (qdrReg q.val 4) 0 w).cmpEnter q.val).closeByDispatch q.val
      readyOrder (d.quad q.val) (d.cyc q.val) = [t] →
      (∀ n, d.chooseSeat q.val t = some n → ¬ (laneBusy (d.quad q.val) t = true ∧ 256 ≤ (d.quad q.val).robOcc) →
        Yields (.taskDispatch q) s (after (d.select q.val t n) false))
      ∧ (d.chooseSeat q.val t = none → Yields (.taskDispatch q) s (after d (!d.roleHeld q.val t))))
    ∧ (∀ (d : Dev) (t : Task) (n : Nat), d.task q.val t.uid = some t → (d.seat n).drill = 0xFFFF →
      let e := d.select q.val t n
      (∃ u, e.task q.val t.uid = some u ∧ u.phase = .seated_ ∧ u.on = n ∧ u.params = (d.seat n).params ∧ u.slots = t.slots)
      ∧ (e.seat n).slots = (d.seat n).slots ++ [(q.val, t.uid)] ∧ e.mem = d.mem)
    ∧ (∀ (d : Dev) (t : Task) (n u : Nat), d.task q.val t.uid = some t → (d.seat n).drill ≠ 0xFFFF → seatTutor n = some u →
      let e := d.select q.val t n
      (∃ v, e.task q.val t.uid = some v ∧ v.phase = .offered ∧ v.on = n)
      ∧ tget [] (e.tutor u).queues 14
          = tget [] (d.tutor u).queues 14 ++ t.slots.map (fun p => words (Pkt.withIndex p.2.pkt (t.idx.getD 0)))
      ∧ (e.tutor u).events.getLsbD 3 = true)
    ∧ (∀ (idx : BitVec 12) (t : Task) (p since : Nat), s.dev.rbit (qdrReg q.val 0) 1 = true →
      t ∈ (s.dev.quad q.val).tasks → t.idx = some idx.toNat → t.phase = .ready p since → p < 7 →
      max 1 (s.dev.rf (qdrReg q.val 0xC) 15 0) * 256 ≤ s.dev.cyc q.val - since →
      YieldsSome (.agePromote q idx) s (fun d =>
        { t with phase := .ready (p + 1) (s.dev.cyc q.val) } ∈ (d.quad q.val).tasks ∧ d.mem = s.dev.mem ∧ d.seats = s.dev.seats))

/-- TASK_COMPLETE, RESULT_RELEASE and LAF_POST (R93, R99, R134): a seat that has done its work frees its slot and the task is finished,
and the words that the slate of its tile corrected are counted; the next finished task whose lane allows it, with nothing to send,
ends; the oldest lost-and-found entry becomes an event of QDR_LAF_RING. -/
def Obligations.TaskEnds : Prop :=
  ∀ (s : State) (q : Quad), s.running = true →
    (∀ (seat : Seat) (e : TaskEnd) (t : Task), s.dev.running seat.val = some (e.quad.val, t) → t.phase = .worked →
      YieldsSome (.taskComplete seat e) s (fun d =>
        d.task e.quad.val t.uid = some { t with phase := .finished }
        ∧ ¬ (e.quad.val, t.uid) ∈ (d.seat seat.val).slots ∧ d.mem = s.dev.mem
        ∧ (seat.val < 1152 → d.rn (tilReg seat.val 0x14) = min (s.dev.rn (tilReg seat.val 0x14) + e.corrected) (2 ^ 32 - 1))))
    ∧ (∀ t : Task, nextRelease [] (s.dev.quad q.val).tasks = some t → t.results = [] → t.enc = none →
      let u : Task := { t with released := true, acks := [], rob := false }
      Yields (.resultRelease q) s ((s.dev.updTask q.val t.uid (fun _ => u)).endTask q.val u))
    ∧ (∀ (d : Dev) (t : Task), (∀ v ∈ ((d.endTask q.val t).quad q.val).tasks, v.uid ≠ t.uid))
    ∧ (∀ e rest, let ring := s.dev.rf (qdrReg q.val 0x10) 13 0
      (s.dev.quad q.val).laf = e :: rest → s.dev.rbit (qdrReg q.val 0) 2 = true → s.dev.ringEn ring = true →
      s.dev.ringKind ring = 2 → s.dev.ringFull ring = false → s.dev.rbit (rngReg ring 0) 23 = false →
      YieldsSome (.lafPost q) s (fun d =>
        (d.quad q.val).laf = rest ∧ d.ringTail ring = (s.dev.ringTail ring + 1) % 2 ^ 32 ∧ d.mem = s.dev.mem
        ∧ ∃ body, d.sent = s.dev.sent ++ [.hostWrite (s.dev.ringAddr ring (s.dev.ringTail ring) 64) body false]
          ∧ fld body 0 1 = 2 ∧ fld body 2 2 = q.val ∧ slice body 16 32 = slice e 0 32))

/-! Rings -/

/-- RING_ENABLE and RING_DISABLE (R143, R126): with valid fields EN is set and HEAD and TAIL are zero, with invalid ones CONFIG_BAD is
set and EN stays 0; clearing EN leaves the fields as they are. -/
def Obligations.RingControl : Prop :=
  ∀ (s : State) (m : Master) (n : RingIx) (v : Word), let a := rngReg n.val 0
    s.mayWrite m a = true →
    (v.getLsbD 31 = true → s.dev.rbit a 31 = false →
      let kind := if n.val ≤ 2 then s.dev.ringKind n.val else bits v.toNat 30 29
      let log := bits v.toNat 28 24
      let ok := kind ≠ 3 ∧ 4 ≤ log ∧ log ≤ 20
        ∧ s.dev.rn2 (rngReg n.val 8) % max 4096 (2 ^ log * (if kind = 1 then 16 else 64)) = 0 ∧ (n.val = 0 → s.dev.ringEn 1 = true)
      (ok → YieldsSome (.ringEnable m n v) s (fun d =>
        d.ringEn n.val = true ∧ d.ringKind n.val = kind ∧ d.ringLog n.val = log ∧ d.ringHead n.val = 0 ∧ d.ringTail n.val = 0
        ∧ d.RegsAgreeOff s.dev (fun b => b = a ∨ b = a + 0x10 ∨ b = a + 0x14) ∧ d.SameButRegs s.dev))
      ∧ (¬ ok → YieldsSome (.ringEnable m n v) s (fun d =>
        d.ringEn n.val = false ∧ d.rbit (rngReg n.val 4) 5 = true ∧ d.SameButRegs s.dev)))
    ∧ (v.getLsbD 31 = false → s.dev.rbit a 31 = true →
      YieldsSome (.ringDisable m n v) s (fun d =>
        d.ringEn n.val = false ∧ d.ringLog n.val = s.dev.ringLog n.val ∧ d.ringKind n.val = s.dev.ringKind n.val
        ∧ d.RegsAgreeOff s.dev (fun b => b = a ∨ b = rngReg n.val 4) ∧ d.SameButRegs s.dev))

/-- Doorbells and descriptor fetch (R123, R145): a submission ring's TAIL takes a value no more than the ring's size past HEAD and
past TAIL, a completion ring's HEAD one between HEAD and TAIL; any other sets DB_ERR and is counted; up to 16 waiting descriptors
of the next ring are read, and HEAD passes them. -/
def Obligations.DoorbellsAndFetch : Prop :=
  ∀ s : State, s.hostUp = true →
    (∀ (off : BitVec 26) (w : BitVec 8) (v : DWord), off.toNat % 4096 = 0 → (w = 4 ∨ w = 8) →
      let n := off.toNat / 4096
      let x := v.toNat % 2 ^ 32
      let past (a b : Nat) := (a + 2 ^ 32 - b) % 2 ^ 32
      let ok := s.dev.ringEn n = true ∧ (if s.dev.ringKind n = 0
        then past x (s.dev.ringHead n) ≤ 2 ^ s.dev.ringLog n ∧ past x (s.dev.ringTail n) ≤ 2 ^ s.dev.ringLog n
        else past x (s.dev.ringHead n) ≤ past (s.dev.ringTail n) (s.dev.ringHead n))
      (ok → Yields (.doorbell off w v) s (s.dev.wn (rngReg n (if s.dev.ringKind n = 0 then 0x14 else 0x10)) x))
      ∧ (¬ ok → YieldsSome (.doorbell off w v) s (fun d =>
        d.rbit (rngReg n 4) 4 = true ∧ d.rn (RNG + 4) = min (s.dev.rn (RNG + 4) + 1) (2 ^ 32 - 1) ∧ d.rn (RNG + 8) = n
        ∧ d.ringHead n = s.dev.ringHead n ∧ d.ringTail n = s.dev.ringTail n ∧ d.SameButRegs s.dev)))
    ∧ (∀ (n : Nat) (data : List Bytes), s.dev.fetchRing = some n → (s.dev.ring n).fetched = [] → (∀ b ∈ data, b.length = 64) →
      data.length ≤ min 16 (s.dev.ringUsed n) →
      (∀ b ∈ data.head?, s.dev.earlyBad n { index := s.dev.ringHead n, desc := some b } = none) →
      YieldsSome (.descriptorFetch (data.map some)) s (fun d =>
        d.ringHead n = (s.dev.ringHead n + data.length) % 2 ^ 32 ∧ d.host.lastFetch = n ∧ d.mem = s.dev.mem
        ∧ (d.ring n).fetched.map (·.desc) = data.map some
        ∧ (d.ring n).fetched.map (·.index) = (List.range data.length).map (fun i => (s.dev.ringHead n + i) % 2 ^ 32)))

/-- COPY_IN, IN_PLACE, RX_BUFFER and CMP_JOB of a mapped ring (R147 to R149, R160): the data is in place and a task packet of the ring's
map entry sets out; a buffer is queued on the completion ring in fetch order; a compression job takes an entry, or stays in front
while packets of its ring are on their way or the quadrant has no entry to give. On the ring of an ingest channel a descriptor of
samples makes its task, one that the channel does not take is refused with DESC_INVALID, as are buffers and jobs. -/
def Obligations.MappedRingDescriptors : Prop :=
  ∀ (s : State) (n : RingIx) (f : Fetched) (b : Bytes) (m : RingMap), s.running = true →
    let d := s.dev.taken n.val
    let o := originOf n.val f
    d.ringMapOf n.val = some m →
    (∀ addr x, s.dev.AtFront n.val 1 f b → d.dataChecks b (zeroAt b 44 20) = .ok addr →
      let e := if Dsc.length b = 0 then d else d.mwrite addr (slice x 0 (Dsc.length b))
      (16 ≤ m.channel → Yields (.copyIn n (some x)) s ((e.send m.quad 0
        { pkt := mkPkt m.quad m.role 0 0xFFFF m.lane (m.slot + 1) m.slot m.pri (Dsc.tag b) addr (Dsc.length b) (Dsc.arg b)
          sender := 0xFFFF, origin := some o }).skim n.val))
      ∧ (m.channel < 16 → d.chanUse o m b = .data → Yields (.copyIn n (some x)) s ((e.dataTask o m b addr).skim n.val))
      ∧ (m.channel < 16 → d.chanUse o m b = .bad → Yields (.copyIn n (some x)) s ((d.refuse o .descInvalid 0).skim n.val)))
    ∧ (∀ addr, s.dev.AtFront n.val 2 f b → d.dataChecks b (zeroAt b 16 8 && zeroAt b 44 20) = .ok addr →
      (16 ≤ m.channel → Yields (.inPlace n) s ((d.send m.quad 0
        { pkt := mkPkt m.quad m.role 0 0xFFFF m.lane (m.slot + 1) m.slot m.pri (Dsc.tag b) addr (Dsc.length b) (Dsc.arg b)
          sender := 0xFFFF, origin := some o }).skim n.val))
      ∧ (m.channel < 16 → d.chanUse o m b = .data → Yields (.inPlace n) s ((d.dataTask o m b addr).skim n.val))
      ∧ (m.channel < 16 → d.chanUse o m b = .bad → Yields (.inPlace n) s ((d.refuse o .descInvalid 0).skim n.val)))
    ∧ (s.dev.AtFront n.val 3 f b → Dsc.headOk b = true → zeroAt b 28 36 = true → Dsc.length b ≠ 2 ^ 32 - 1 →
      (16 ≤ m.channel → Yields (.rxBuffer n) s ((d.setRing m.cplRing { d.ring m.cplRing with
        buffers := insertBy (fun x y => x.1.serial ≤ y.1.serial) (o, Dsc.host b, Dsc.length b)
          (d.ring m.cplRing).buffers }).skim n.val))
      ∧ (m.channel < 16 → Yields (.rxBuffer n) s ((d.refuse o .descInvalid 0).skim n.val)))
    ∧ (s.dev.AtFront n.val 4 f b → Dsc.headOk b = true → d.jobChecks b = none →
      let room := d.rf (qdrReg m.quad 8) 12 0 < 4096 - (d.quad m.quad).occ
      (16 ≤ m.channel → room → d.ringUnderway m.quad n.val = false →
        ∃ e : Dev, Yields (.cmpJob n) s (e.skim n.val)
          ∧ ∃ t ∈ (e.quad m.quad).tasks, t.role = 255 ∧ t.params = b ∧ t.origin = some o ∧ t.lane = m.lane ∧ t.idx.isSome = true)
      ∧ (16 ≤ m.channel → (¬ room ∨ d.ringUnderway m.quad n.val = true) → Yields (.cmpJob n) s (s.dev.skim n.val)))

/-- The commands of ring 0 (R74, R94, R99, R150, R249, R254): each does what R150 says of it and completes with OK; a descriptor of an
allocation, of a fragment or of a tensor that does not exist is refused in the obligation after this one. -/
def Obligations.RingZeroCommands : Prop :=
  AdminLaw .nop 0x40 16 (fun d o _ e => e = d.complete o none .ok 0 0)
  ∧ AdminLaw .allocAdd 0x42 48 (fun d o b e =>
      let a := allocRec (slice b 16 32) false
      let f : Dev := { d with plt := { d.plt with allocs := d.plt.allocs ++ [a] } }
      a.size ≠ 2 ^ 64 - 1 ∧ (a.kind = 0 → d.plt.seated = true) ∧ d.recordBad (slice b 16 32) = none
      ∧ e = (if bit a.flags 2 then f.mzero a.base a.size else f).complete o none .ok 0 0)
  ∧ AdminLaw .allocFree 0x43 20 (fun d o b e => ∃ a, d.alloc (fld b 16 4) = some a ∧ a.fromPlat = false
      ∧ d.tds.any (fun t => t.2.alloc == a.id) = false ∧ d.ringNames a = false ∧ d.ownerBusy a = false
      ∧ e = ({ d with plt := { d.plt with allocs := d.plt.allocs.filter (fun r => r.id != a.id) } }).complete o none .ok 0 0)
  ∧ (∀ x : Bytes, AdminLaw (.tdescCreate (some x)) 0x44 28 (fun d o b e =>
      let y := slice x 0 (Dsc.length b)
      Dsc.length b ≤ 4096 ∧ jobAllOnes y = false ∧ ∃ a ts slot hit, d.alloc (fld y 0 4) = some a
        ∧ d.tdCheck y (Dsc.length b) a = .ok (ts, slot, hit)
        ∧ e = (d.tdCreate y (Dsc.length b) a).1.complete o none (if hit then .padOverlap else .ok) 0
            (tget 0 d.tdGen slot * 65536 + slot)))
  ∧ AdminLaw .tdescDestroy 0x45 20 (fun d o b e => d.tdNamed (fld b 16 4) = true ∧ e = d.tdMark (fld b 16 4) o)
  ∧ AdminLaw .fragApply 0x46 18 (fun d o b e => (tfind d.plt.frags (fld b 16 2)).isSome = true
      ∧ e = ({ d with plt := { d.plt with armed := d.plt.armed ++ [(none, fld b 16 2)] } }).complete o none .ok 0 0)
  ∧ AdminLaw .fragWithdraw 0x47 18 (fun d o b e => (tfind d.plt.frags (fld b 16 2)).isSome = true
      ∧ d.plt.armed.any (fun a => a.2 == fld b 16 2) = false
      ∧ e = (({ d with plt := { d.plt with frags := tdel d.plt.frags (fld b 16 2) } }).wn (PLT + 0x38)
          (tdel d.plt.frags (fld b 16 2)).length).complete o none .ok 0 0)
  ∧ AdminLaw .taskInject 0x48 48 (fun d o b e => Pkt.length (slice b 16 32) ≠ 2 ^ 32 - 1 ∧ Pkt.opcount (slice b 16 32) ≠ 7
      ∧ e = d.send (Pkt.quad (slice b 16 32)) 3 { pkt := d.resubmitted (slice b 16 32), sender := 0xFFFF, origin := some o })
  ∧ AdminLaw .cancel 0x49 26 (fun d o b e => bits (fld b 17 1) 7 3 = 0 ∧ fld b 16 1 ≤ 3
      ∧ let r := d.cancel (fld b 17 1 % 8) (fld b 16 1) (fld b 18 2) (fld b 20 6)
        e = r.1.complete o none .ok 0 (min r.2.1 0xFFFF + min r.2.2 0xFFFF * 0x10000))

/-- What ring 0 refuses (R150, R151): unused bytes that are not zero with DESC_INVALID and detail 3; a name of nothing with
DESC_INVALID and detail 5.
Completions (R152): a descriptor of ring 0 completes on ring 1, with the status, detail and result given, and is open no more. -/
def Obligations.RingZeroEnds : Prop :=
  ((∀ (s : State) (f : Fetched) (b : Bytes), s.running = true → s.dev.AtFront 0 0x40 f b →
    (Dsc.headOk b = false ∨ zeroAt b 16 48 = false) →
    Yields .nop s (((s.dev.taken 0).complete (originOf 0 f) none .descInvalid 3 0).skim 0))
  ∧ AdminLaw .allocFree 0x43 20 (fun d o b e => d.alloc (fld b 16 4) = none ∧ e = d.complete o none .descInvalid 5 0)
  ∧ AdminLaw .tdescDestroy 0x45 20 (fun d o b e => d.tdNamed (fld b 16 4) = false ∧ e = d.complete o none .descInvalid 5 0)
  ∧ AdminLaw .fragApply 0x46 18 (fun d o b e => tfind d.plt.frags (fld b 16 2) = none ∧ e = d.complete o none .descInvalid 5 0))
  ∧ (∀ (d : Dev) (o : Origin) (st : Status) (detail result : Nat), o.ring = 0 →
    let e := d.complete o none st detail result
    e.host.cpls = d.host.cpls ++ [{ ring := 1, lane := none, origin := o, status := st, detail, result }]
    ∧ (e.ring 0).open_ = (d.ring 0).open_.filter (· != o.serial) ∧ e.mem = d.mem ∧ e.regs = d.regs)

/-- What the block writes to the host (R148, R152, R156, R157): the next completion or event of a ring with room is written at TAIL,
which moves on; a full completion ring keeps it; a delivery fills the oldest buffer; a timer that has run out and an unmasked vector
that is pending send the interrupt.
A delivery too long for its buffer spends the buffer with LEN_RANGE and waits for the next.
Host link reset and PERST# (R139, R414, R418): every ring is disabled, an FLR also clears the MSI-X table, and D3hot keeps what the
host configured (log entry 92); PERST# low does the same as a link reset, and PERST# high lets a boot that waits for it end stage 5. -/
def Obligations.HostLink : Prop :=
  (∀ (s : State) (n : RingIx), let r := n.val
    (∀ c, s.running = true → nextCpl r [] s.dev.host.cpls = some c → s.dev.ringEn r = true → s.dev.ringKind r = 1 →
      s.dev.ringFull r = false → s.dev.rbit (rngReg r 0) 23 = false →
      YieldsSome (.completionPost n) s (fun d =>
        d.host.cpls = s.dev.host.cpls.erase c ∧ d.ringTail r = (s.dev.ringTail r + 1) % 2 ^ 32
        ∧ d.sent = s.dev.sent ++ [.hostWrite (s.dev.ringAddr r (s.dev.ringTail r) 16) (c.bytes (s.dev.ringPhase r (s.dev.ringTail r))) false]
        ∧ d.RegsAgreeOff s.dev (· = rngReg r 0x14) ∧ d.mem = s.dev.mem))
    ∧ (∀ c, s.running = true → nextCpl r [] s.dev.host.cpls = some c → s.dev.ringEn r = true → s.dev.ringKind r = 1 →
      s.dev.ringFull r = true → s.dev.rbit (rngReg r 4) 3 = true → Yields (.completionPost n) s s.dev)
    ∧ (∀ e, s.running = true → s.dev.host.events.find? (fun x => x.ring == r) = some e → s.dev.ringEn r = true →
      s.dev.ringKind r = 2 → s.dev.ringFull r = false → s.dev.rbit (rngReg r 0) 23 = false →
      YieldsSome (.eventPost n) s (fun d =>
        d.host.events = s.dev.host.events.erase e ∧ d.ringTail r = (s.dev.ringTail r + 1) % 2 ^ 32 ∧ d.mem = s.dev.mem
        ∧ ∃ body, d.sent = s.dev.sent ++ [.hostWrite (s.dev.ringAddr r (s.dev.ringTail r) 64) body false]
          ∧ body = patch e.body 1 [if s.dev.ringPhase r (s.dev.ringTail r) then 0x80#8 else 0#8]))
    ∧ (s.running = true → s.dev.rbit (rngReg r 0) 23 = true → s.dev.rf (rngReg r 0x18) 31 16 ≠ 0 → (s.dev.ring r).irqCount ≠ 0 →
      (s.dev.ring r).irqSince + s.dev.rf (rngReg r 0x18) 31 16 * 256 ≤ s.dev.now →
      ¬ s.dev.rf (rngReg r 0) 10 0 ∈ s.dev.host.masked →
      Yields (.irqTimer n) s ((s.dev.setRing r { s.dev.ring r with irqCount := 0 }).emit (.msix (s.dev.rf (rngReg r 0) 10 0))))
    ∧ (∀ v : BitVec 11, s.hostUp = true → v.toNat ∈ s.dev.host.masked → v.toNat ∈ s.dev.host.pendingIrq →
      Yields (.msixUnmask v) s (Dev.emit { s.dev with host := { s.dev.host with
        masked := s.dev.host.masked.erase v.toNat, pendingIrq := s.dev.host.pendingIrq.erase v.toNat } } (.msix v.toNat)))
    ∧ (∀ x o a cap rest, s.running = true → s.dev.host.deliveries.find? (fun x => x.ring == r) = some x → s.dev.ringEn r = true →
      s.dev.ringKind r = 1 → (s.dev.ring r).buffers = (o, a, cap) :: rest →
      let total := x.head.length + x.length + x.tail.length
      (total ≤ cap → YieldsSome (.rxDelivery n) s (fun d =>
        d.sent = s.dev.sent ++ [.hostWrite a (x.head ++ s.dev.mem.readN x.addr x.length ++ x.tail) true]
        ∧ d.host.deliveries = s.dev.host.deliveries.erase x ∧ d.mem = s.dev.mem ∧ (d.ring r).buffers = rest
        ∧ ∀ k, x.stream = some k → (s.dev.emitSt k).due = [] → (d.emitSt k).cur = none))
      ∧ (cap < total → Yields (.rxDelivery n) s
          ((s.dev.setRing r { s.dev.ring r with buffers := rest }).complete o none .lenRange 0 total))))
  ∧ (∀ s : State,
    (∀ e : HostLinkEvent, s.running = true →
      YieldsSome (.hostLinkReset e) s (fun d =>
        (∀ n, n < 16384 → d.ringEn n = false) ∧ (∀ n, n < 16384 → d.ringTail n = s.dev.ringTail n)
        ∧ d.mem = s.dev.mem ∧ d.plt = s.dev.plt
        ∧ (e = .flr → d.host.msix = [] ∧ d.host.masked = [] ∧ d.host.pendingIrq = [])
        ∧ (e = .d3hot → d.host = s.dev.host)
        ∧ (e = .linkDown ∨ e = .hotReset → d.host = { s.dev.host with bar4Log := 36, aerUr := false })))
    ∧ (s.care.perstLow = false →
      ∃ t, exec (.perst true) s = .next t ∧ t.care = { s.care with perstLow := true } ∧ t.pending = s.pending
        ∧ (∀ n, n < 16384 → t.dev.ringEn n = false) ∧ t.dev.mem = s.dev.mem)
    ∧ (s.running = true → s.care.run.stage = 5 → s.care.run.linksDone = true → s.dev.ringEn 0 = false →
      ∃ t, exec (.perst false) s = .next t ∧ t.care.perstLow = false ∧ t.care.run.stage = 6))

/-! Seat work -/

/-- Column tasks (R210): FILTER, HASH, BUCKET and NORM.
Joins (R231 to R234): an empty build operand seals every table that the task's BUILD entries name for its tag; a row goes to its
partition while that has room; a task of one hash PROBE entry matches every row of an equal key and puts out one batch; what a probe
row puts out by its kind. -/
def Obligations.ColumnAndJoinTasks : Prop :=
  (ColLaw .filterTask 2 ∧ ColLaw .hashTask 3 ∧ ColLaw .bucketTask 4 ∧ ColLaw .normTask 5)
  ∧ ((∀ (s : State) (seat : Seat) (q : Nat) (t : Task), s.running = true →
    let es := codeOps 0x40 (colOps t.params)
    let key (o : ColOp) := if bit o.mode 0 then 0 else t.tag.toNat
    s.dev.atWork seat.val 6 = some (q, t) → s.dev.laneBefore q t = false →
    (∀ x ∈ es, (bit x.1.mode 0 = false → s.dev.buildWaits (joinId x.1) t.tag.toNat = false)
      ∧ (bit x.1.mode 0 = true → (s.dev.joinTab (joinId x.1) 0).sealed_ = false)
      ∧ (s.dev.joinTab (joinId x.1) (key x.1)).broken = false) →
    ((t.operand 0).map Pkt.length).getD 0 = 0 →
    YieldsSome (.joinBuildTask seat) s (fun e =>
      e.task q t.uid = some (t.did .ok []) ∧ ∀ x ∈ es, (e.joinTab (joinId x.1) (key x.1)).sealed_ = true))
  ∧ (∀ (d : Dev) (id k : Nat) (perTag : Bool) (parts : List Nat) (spill rb : Nat) (r : JoinRow),
    let old := d.joinTab id k
    (old.rows.filter (fun x => x.part == r.part)).length < d.partRoom (parts.getD r.part 0) perTag rb →
    (d.insertRow id k perTag parts spill rb r).joinTab id k = { old with rows := old.rows ++ [r] })
  ∧ (∀ (s : State) (seat : Seat) (q : Nat) (t : Task) (cs : List ColOp) (o : ColOp) (d : Dev) (raw : Bytes) (b : DBatch) (c : BCol)
      (x : DBatch) (n : ColCnt), s.running = true → s.dev.atWork seat.val 7 = some (q, t) →
    codeOps 0x41 (colOps t.params) = [(o, cs)] → o.mode % 4 = 0 →
    let id := joinId o
    let perTag := s.dev.joinPerTag id
    let tab := s.dev.joinTab id (if perTag then t.tag.toNat else 0)
    s.dev.buildSealed id t.tag.toNat perTag = true → tab.broken = false → (∀ k, tab.keyType = some k → k = c.type) →
    s.dev.operandData t 0 = (d, some raw) →
    d.inputBatch t.params raw = some b → b.col o.inA = some c → c.flat b.samples = true → (c.numeric || c.binary) = true →
    probeOut b o (s.dev.join id).shape ((List.range b.samples).map (fun i => match (rowKeys b c o.workExp).getD i none with
      | none => []
      | some key => (tab.rows.filter (fun r => r.key == key)).map (·.carried))) = some ([x], n) →
    d.hasSlot t.params x.bytes.length = true →
    YieldsSome (.joinProbeTask seat) s (fun e => e.gaveOut q t x.bytes))
  ∧ (∀ (k : Nat) (ms : Matches), 0 < k →
    (probeRow 0 k true ms).1 = (ms.take k).map (fun m => (true, some m))
    ∧ (ms ≠ [] → (probeRow 1 k true ms).1 = (ms.take k).map (fun m => (true, some m)) ∧ (probeRow 2 k true ms).1 = [(true, none)]
        ∧ (probeRow 3 k true ms).1 = [])
    ∧ (probeRow 1 k true []).1 = [(false, none)] ∧ (probeRow 2 k true []).1 = [] ∧ (probeRow 3 k true []).1 = [(false, none)]))

/-- Sequences (R241, R242): for a task of one SEQ entry an event of a new key, in a batch of one record, is committed as that key's
history and put out as its sequence. -/
def Obligations.SequenceTasks : Prop :=
  ∀ (s : State) (seat : Seat) (q : Nat) (t : Task) (o : ColOp) (cs : List ColOp) (d : Dev) (raw : Bytes) (b : DBatch)
    (kc tc : BCol) (w : Int × Bool) (tm : Bytes), s.running = true → s.dev.atWork seat.val 8 = some (q, t) →
    codeOps 0x60 (colOps t.params) = [(o, cs)] → s.dev.laneBefore q t = false →
    s.dev.operandData t 0 = (d, some raw) → s.dev.inputBatch t.params raw = some b → b.samples = 1 → b.valid.getD 0 false = true →
    b.col o.inA = some kc → b.col o.inB = some tc → kc.flat 1 = true → kc.numeric = true → tc.flat 1 = true → tc.type = 8 →
    carryOk b cs = true → kc.work 1 o.workExp 0 = some w → tc.val 1 0 = some tm →
    let limit := bits o.p0 22 0
    let key := Machine.tc 64 w.1
    let own := seqKey (fld t.params 16 4) 0
    let old : SeqSt := tget {} s.dev.seqs own
    let e : SeqEvent := { time := ofLe tm, ord := old.next, carried := seqCarried b (seqOrder cs) 0 }
    let out := seqBytes key t.tag.toNat limit (bit o.p0 24) (bit o.p0 25) (seqRB b (seqOrder cs)) [e]
    1 ≤ limit → (∀ x ∈ old.keys, x.1 ≠ key) → old.keys.length < Machine.tc 64 o.p2 → d.hasSlot t.params out.length = true →
    YieldsSome (.sequenceTask seat) s (fun f => f.gaveOut q t out
      ∧ tget {} f.seqs own = { old with keys := old.keys ++ [(key, [e])], next := old.next + 1 })

/-- Selection (R314 to R319): the best k of some scores are k of them, or all, and none left out is better; a batch-form top-k task
with 64-bit indices puts out its batch with the column of its rows' records. -/
def Obligations.SelectionTasks : Prop :=
  (∀ (smallest : Bool) (k : Nat) (l : List (Int × Nat)),
    let r := (bestK smallest k l).1
    r.length = min k l.length ∧ (∀ x ∈ r, x ∈ l) ∧ (∀ x ∈ l, x ∉ r → ∀ y ∈ r, keyLe smallest y x = true))
  ∧ (∀ (s : State) (seat : Seat) (q : Nat) (t : Task) (d : Dev) (raw : Bytes) (b : DBatch) (c : BCol), s.running = true →
    s.dev.atWork seat.val 10 = some (q, t) →
    let o := selOp t.params (bits t.arg 7 0)
    bits t.arg 31 8 = 0 → bits t.arg 7 0 < fld t.params 0 2 → o.op = 0x70 → o.inp ≠ 0xFFFF → 1 ≤ o.k → o.k ≤ 64 → o.idx64 = true →
    s.dev.operandData t 0 = (d, some raw) → s.dev.readBatch raw = some b → b.col o.inp = some c → c.depth = 1 → isInt c.type = true →
    b.col o.out = none →
    let offs := ((c.arrays b.samples).1.head?).getD []
    let scores (i : Nat) := (List.range (offs.getD (i + 1) 0 - offs.getD i 0)).filterMap (fun p =>
      (c.work b.samples o.workExp (offs.getD i 0 + p)).map (fun w => (w.1, o.index p)))
    let rows := (List.range b.samples).map (fun i =>
      if b.valid.getD i false then some (finalRecord true o.k (topRow o o.k (scores i))) else none)
    let out := DBatch.bytes { b with cols := b.cols ++ [mkCol o.out 0xD 0 (finalBytes true o.k) [] rows []] }
    d.hasSlot t.params out.length = true → YieldsSome (.selectTask seat) s (fun e => e.gaveOut q t out))

/-- Moves and matrices (R256, R274 to R285): a move task of one record runs it and has one result, whose packet is free (log entry
13); a matrix task fills the bank the last one did not use, and is not done; a store's end frees the bank, and the task is done; for
unscaled operands of at most 32 elements an accumulator is their clamped dot product. -/
def Obligations.TensorTasks : Prop :=
  (∀ (s : State) (seat : Seat) (q : Nat) (t : Task) (d d2 : Dev) (raw : Bytes) (x y : TDesc), s.running = true →
    s.dev.running seat.val = some (q, t) → t.phase = .seated_ → (t.role = 9 ∨ t.role = 11) → t.arg = 2 ^ 31 →
    ((t.operand 0).map Pkt.length).getD 0 = 32 → s.dev.operandData t 0 = (d, some raw) → raw.length = 32 →
    let m := moveRec raw
    d.tdesc m.src (q, t.uid) = some x → d.tdesc m.dst (q, t.uid) = some y → moveOk m x y (fld raw 10 2) = true →
    d.touchAll (moveReads m x y) = (d2, false) →
    YieldsSome (.moveTask seat) s (fun e => e.mem = (d2.runMove m x y).mem
      ∧ ∃ a n, e.task q t.uid = some (t.did .ok [{ payload := a, length := n }])))
  ∧ (∀ (s : State) (seat : Seat) (q : Nat) (t : Task) (j : MxJob) (a b : Alloc) (d : Dev), s.running = true →
    let x := s.dev.mxSt seat.val
    s.dev.mxNext seat.val = some (q, t) → t.role = 9 → bit t.arg 31 = false → x.banks.length < 2 → s.dev.mxJob q t = some j →
    s.dev.alloc j.a.desc.alloc = some a → j.a.inside a.size = true → s.dev.alloc j.b.desc.alloc = some b → j.b.inside b.size = true →
    s.dev.touchAll (j.a.reads j.rowA j.bank.rows j.k ++ j.b.reads j.rowB j.bank.cols j.k) = (d, false) →
    YieldsSome (.matrixTask seat) s (fun e =>
      e.mxSt seat.val = { bank := !x.bank, banks := x.banks ++ [{ j.bank with
        acc := (List.range j.bank.rows).flatMap (fun r => (List.range j.bank.cols).map (fun c =>
          (mxElement d j.a j.b j.k j.bank.f (j.rowA + r) (j.rowB + c)).1)) }] }
      ∧ e.mem = d.mem ∧ e.task q t.uid = s.dev.task q t.uid))
  ∧ (∀ (s : State) (seat : Seat) (b : MxBank) (rest : List MxBank) (t : Task), s.running = true →
    let x := s.dev.mxSt seat.val
    x.banks = b :: rest → s.dev.task b.q b.uid = some t → t.phase = .seated_ →
    YieldsSome (.matrixStoreEnd seat) s (fun e => (e.mxSt seat.val).banks = rest
      ∧ e.mem = ((s.dev.setMx seat.val { x with banks := rest }).storeBank seat.val b).mem
      ∧ ∃ p n, e.task b.q b.uid = some (t.did .ok [{ payload := p, length := n }])))
  ∧ (∀ (d : Dev) (a b : MxOperand) (k row col : Nat), a.desc.scaled = false → b.desc.scaled = false → k ≤ 32 →
    (mxElement d a b k 0 row col).1
      = clampI accMin accMax (((List.range k).map (fun i => a.q d i row * b.q d i col)).sum))

/-- Gathers (R295 to R298): a gather with one pooling entry, its rows all here and got, puts out its batch with the pooled columns;
one that needs rows of peers waits with its requests. An answer goes to the request it names. -/
def Obligations.Gathers : Prop :=
  ∀ s : State, s.running = true →
    (∀ (seat : Seat) (q : Nat) (t : Task) (d d2 : Dev) (raw : Bytes) (b : DBatch) (p : Pool) (ps : List BagPos)
        (got : List (Nat × RowGot)), 1152 ≤ seat.val →
      let c := seat.val - 1152
      s.dev.atWork seat.val 12 = some (q, t) → t.tag ≠ BitVec.allOnes 48 → embPools t.params = [p] → s.dev.emb.due = [] →
      tfind s.dev.emb.gathers c = none → s.dev.operandData t 0 = (d, some raw) → d.readBatch raw = some b →
      (b.cols.map (·.idx) ++ (if p.emptyOut = 0xFFFF then [p.out] else [p.out, p.emptyOut])).Nodup →
      bagPositions b p = some ps → d.asks c b.valid [(0, p, ps)] = [] →
      d.fetchPool c t.tag.toNat false [] b.valid 0 p ps = (d2, got) →
      (∀ g ∈ got, g.2 ≠ .unreachable ∧ g.2 ≠ .poisoned) →
      let out := DBatch.bytes { b with cols := b.cols ++ (poolColumns b p ps got).1 }
      d2.hasSlot t.params out.length = true →
      YieldsSome (.gatherTask seat) s (fun e => ∃ st a, (st = .ok ∨ st = .late)
        ∧ e.task q t.uid = some (t.did st [{ payload := a, length := out.length }])))
    ∧ (∀ (seat : Seat) (q : Nat) (t : Task) (d d2 : Dev) (raw : Bytes) (b : DBatch) (p : Pool) (ps : List BagPos)
        (asks : List GthAsk), 1152 ≤ seat.val →
      let c := seat.val - 1152
      s.dev.atWork seat.val 12 = some (q, t) → t.tag ≠ BitVec.allOnes 48 → embPools t.params = [p] → s.dev.emb.due = [] →
      tfind s.dev.emb.gathers c = none → s.dev.operandData t 0 = (d, some raw) → d.readBatch raw = some b →
      (b.cols.map (·.idx) ++ (if p.emptyOut = 0xFFFF then [p.out] else [p.out, p.emptyOut])).Nodup →
      bagPositions b p = some ps → sendAsks c t.tag.toNat (d.asks c b.valid [(0, p, ps)]) d [] = (d2, asks, true) → asks ≠ [] →
      YieldsSome (.gatherTask seat) s (fun e => tfind e.emb.gathers c = some { q, uid := t.uid, asks }
        ∧ e.task q t.uid = s.dev.task q t.uid))
    ∧ (∀ (m : Msg) (c : Nat) (g : GthSt) (since : Nat), s.dev.fab.inbox.find? (fun m => m.cls == 2) = some m →
      s.dev.fab.waits.find? (fun w => w.1 == m.id) = some (m.id, .read c, since) → tfind s.dev.emb.gathers c = some g →
      YieldsSome .readRsp s (fun e => e.fab.inbox = s.dev.fab.inbox.erase m ∧ (∀ w ∈ e.fab.waits, w.1 ≠ m.id)
        ∧ tfind e.emb.gathers c = some { g with asks := g.asks.map (fun a => if a.msg = m.id then
            { a with answer := some (Status.ofCode (fld m.data 0 1), bit (fld m.data 1 1) 0, slice m.data 16 (fld m.data 4 4)) } else a) }))
    ∧ (∀ m : Msg, s.dev.fab.inbox.find? (fun m => m.cls == 1 && fld m.data 2 6 ≤ s.dev.step
          && !s.dev.emb.due.any (fun u => u.table == fld m.data 0 2)) = some m →
      s.dev.table (fld m.data 0 2) = none → s.dev.sendable m.src = none →
      Yields .readReq s ((Dev.bump { s.dev with fab := { s.dev.fab with inbox := s.dev.fab.inbox.erase m } } (LNK + 0x3C))))

/-- Updates and replicas (R300 to R306, R311): a scatter task whose table takes no updates drops its records and is done; an
application that is due, with no reads left before it, is made and is due no more; a refresh ends; disabling replicas invalidates
them. -/
def Obligations.UpdatesAndReplicas : Prop :=
  ∀ s : State,
    (∀ (seat : Seat) (q : Nat) (t : Task) (d : Dev) (raw : Bytes) (tb : EmbTable), s.running = true → 1152 ≤ seat.val →
      s.dev.atWork seat.val 13 = some (q, t) → t.acks = [] → s.dev.operandData t 0 = (d, some raw) →
      (embTables t.params).find? (fun x => x.id == fld raw 0 2) = some tb → 32 ≤ raw.length → fld raw 3 1 = 1 →
      raw.length = 32 + fld raw 4 4 * (16 + 8 * tb.dim) → zeroAt raw 8 24 = true → tb.updAlloc = 0 →
      YieldsSome (.scatterTask seat) s (fun e => e.task q t.uid = some (t.did .ok [])
        ∧ e.mem = (d.tableCount tb 0 8 (fld raw 4 4)).mem))
    ∧ (∀ (table : BitVec 16) (u : UpdDue) (t : EmbTable), s.running = true →
      s.dev.emb.due.find? (fun u => u.table == table.toNat) = some u → s.dev.table table.toNat = some t → s.dev.readsLeft u = false →
      YieldsSome (.updateApply table) s (fun e => e.emb.due = s.dev.emb.due.erase u ∧ e.mem = (s.dev.applySet t u.tag).mem))
    ∧ (∀ (group : BitVec 8) (rows : List (Nat × Nat)), s.running = true → tfind s.dev.emb.refresh group.toNat = some rows →
      s.dev.emb.due = [] → YieldsSome (.replicaRefreshEnd group) s (fun e => tfind e.emb.refresh group.toNat = none))
    ∧ (∀ (m : Master) (c : ClusterIx) (v : Word), s.mayWrite m (cluReg c.val 0x400) = true → maskedBit v 0 false → ¬ maskedBit v 1 true →
      s.dev.rbit (cluReg c.val 0x400) 0 = true →
      YieldsSome (.replDisable m c v) s (fun e => e.rbit (cluReg c.val 0x400) 0 = false
        ∧ e.mem = (s.dev.replDisable c.val).mem ∧ ∀ t r, e.replica c.val t r = none))

/-! Intake, streams, ports -/

/-- Table intake and the epoch cache (R161, R174, R175, R178): a DECODE task whose items are all expanded and have all found their
slots, with the replay not in force, ends with its status and results; an assist ticket older than its limit is gone and its task
arrives; the next replay batch is sent, and the last of a term ends it; an armed swap puts a back window that is full or holds the
term's last batch in front once the front one is spent; CMD.SWAP arms a swap, CMD.TERM_ADVANCE an advance of the term. -/
def Obligations.Intake : Prop :=
  ∀ s : State,
    (∀ (seat : Seat) (q : Nat) (t : Task) (w : IchWork) (d2 : Dev) (rs : List Result), s.running = true →
      s.dev.atWork seat.val 1 = some (q, t) →
      let c := fld t.params 0 1
      let d := if (s.dev.ich c).work.map (·.uid) = some t.uid then s.dev else s.dev.beginDecode c t
      s.dev.rbit (ichReg c 0) 31 = true → s.dev.laneBefore q t = false → (d.ich c).work = some w → w.toExpand = [] → w.inPipe = 0 →
      placeItems c seat.val w.items d w.results = ([], d2, rs) → d2.cacheMode c ≠ 2 → bit t.arg 30 = false →
      YieldsSome (.decodeTask seat) s (fun e => (e.ich c).work = none ∧ e.task q t.uid = some (t.did w.status rs)))
    ∧ (∀ (c : Fin 16) (ticket : BitVec 24) (k : Ticket) (t : Task) (m : RingMap), s.running = true →
      (s.dev.ich c.val).tickets.find? (fun k => k.ticket == ticket.toNat) = some k →
      max 1 (s.dev.rf (ichReg c.val 0x30) 7 0) ≤ k.bells → s.dev.ichRing c.val = some m → s.dev.ticketTask c.val k = some t →
      YieldsSome (.assistTimeout c ticket) s (fun e =>
        (∀ x ∈ (e.ich c.val).tickets, x.ticket ≠ k.ticket) ∧ ∃ u, e.task m.quad t.uid = some u ∧ (tfind u.slots 1).isSome = true))
    ∧ (∀ (c : Fin 16) (b : WinBatch) (rest : List WinBatch) (n : Nat), s.running = true →
      let d := s.dev.refill c.val
      let e := (d.setIch c.val { d.ich c.val with front := rest }).sendBatch n
        { payload := b.slot, length := b.length, corrupt := b.corrupt, subst := b.subst, tag := some b.tag }
      (d.ich c.val).front = b :: rest → d.ichSeat c.val = some n → d.rbit (ichReg c.val 0) 31 = true →
      Yields (.replayBatchSend c) s
        (if b.last = true ∧ rest = [] ∧ b.term = (d.ich c.val).term then e.termEnd c.val else e))
    ∧ (∀ c : Fin 16, s.running = true →
      let d := s.dev.refill c.val
      let x := d.ich c.val
      d.replaying c.val = true → d.swapArmed c.val = true → x.front = [] → x.back ≠ [] →
      (Dp.window x.params ≤ x.back.length ∨ x.cached.length ≤ x.pos) →
      Yields (.windowSwap c) s ((d.setIch c.val { x with front := x.back, back := [], armed := false }).refill c.val))
    ∧ (∀ (m : Master) (c : Fin 16) (v : Word), s.mayWrite m (ichReg c.val 0x54) = true → (s.dev.ich c.val).params ≠ [] →
      (v.getLsbD 1 = true → v.getLsbD 0 = false →
        Yields (.cmdSwap m c v) s (s.dev.setIch c.val { s.dev.ich c.val with armed := true }))
      ∧ (v.getLsbD 1 = false → v.getLsbD 0 = true →
        Yields (.cmdTermAdvance m c v) s (s.dev.setIch c.val { s.dev.ich c.val with advance := true })))

/-- Streams (R186 to R198): an accepted frame moves its stream on and leaves the port; a block below the group's watermark closes with
its records in time order: with a free slot it is written there and one packet sets out, with none it waits, and a block that waited
is written once there is one; a silent stream goes idle; a group that pauses sends the largest quanta wanted again; the oldest
spilled record comes back while there is room. -/
def Obligations.Streams : Prop :=
  ∀ s : State, s.running = true →
    (∀ (p : Fin 2) (f : EthFrame) (u : Datagram) (n : Nat) (x : StrSt) (high lost : Nat), let b := u.data
      (s.dev.eth p.val).rx.find? (fun e => e.1 == 8) = some (8, f) → ethBody f.raw = .udp u →
      s.dev.streamEntry p.val (fld b 4 2) = some n → frameOk b (s.dev.recBytes n) = true →
      (s.dev.str n).accept (s.dev.rn2 (strReg n 0x10)) (fld b 8 8) = some (x, high, lost) → bit (fld b 3 1) 1 = false →
      n < 1024 →
      YieldsSome (.streamFrame p) s (fun e =>
        e.str n = { x with idle := false, quiet := 0 } ∧ e.rn2 (strReg n 0x10) = high
        ∧ (e.eth p.val).rx = (s.dev.eth p.val).rx.erase (8, f)))
    ∧ (∀ g : Fin 16,
      let x := s.dev.grp g.val
      let room := s.dev.rn (grpReg g.val 0x2C)
      let slot := s.dev.takeSlot (s.dev.rn (grpReg g.val 0x28)) room
      let tag := s.dev.rn2 (grpReg g.val 0x20) % 2 ^ 48
      let mine := sortBy StrRec.le (x.buf.filter (fun r => r.time < s.dev.blockAt g.val (x.block + 1)))
      let port := bits (s.dev.rn (grpReg g.val 0x40)) 28 26
      let written (a : Nat) (l : List StrRec) (e : Dev) : Prop :=
        (e.grp g.val).closed = none ∧ e.mem.readN (a + 64) (l.flatMap StrRec.bytes).length = l.flatMap StrRec.bytes
        ∧ (e.quad port).inbound.length = (s.dev.quad port).inbound.length + 1
      (x.on = true → x.closed = none → x.block < s.dev.closable g.val (s.dev.grpWm g.val) → tag ≠ 2 ^ 48 - 1 →
        let moved (e : Dev) : Prop := (e.grp g.val).block = x.block + 1
          ∧ (e.grp g.val).buf = x.buf.filter (fun r => s.dev.blockAt g.val (x.block + 1) ≤ r.time)
        (∀ a d, slot = some (a, d) → fitRecords (room - 64) mine = (mine, []) →
          YieldsSome (.blockClose g) s (fun e => moved e ∧ written a mine e))
        ∧ (slot = none → YieldsSome (.blockClose g) s (fun e => moved e ∧ e.mem = s.dev.mem
            ∧ (e.grp g.val).closed = some { k := x.block, tag, wm := s.dev.grpWm g.val, koi := x.blockKoi, recs := mine })))
      ∧ (∀ c a d, x.closed = some c → slot = some (a, d) → fitRecords (room - 64) c.recs = (c.recs, []) →
        YieldsSome (.blockClose g) s (fun e => (e.grp g.val).block = x.block ∧ written a c.recs e)))
    ∧ (∀ n : Fin 1024, (s.dev.str n.val).valid = true → (s.dev.str n.val).idle = false →
      max 1 (s.dev.rf (grpReg (s.dev.strGroup n.val) 0x54) 15 0) ≤ (s.dev.str n.val).quiet →
      YieldsSome (.streamIdle n) s (fun e => e.str n.val = { s.dev.str n.val with idle := true } ∧ e.mem = s.dev.mem))
    ∧ (∀ (g : Fin 16) (port : Fin 2) (pri : Fin 8), (s.dev.grp g.val).pfc = true →
      (∃ n ∈ s.dev.members g.val, s.dev.strPort n = port.val) → bit (s.dev.rf (grpReg g.val 0) 27 20) pri.val = true →
      YieldsSome (.pfcRepeat g) s (fun e => .pfc port.val pri.val (s.dev.pfcWanted port.val pri.val) ∈ e.sent
        ∧ e.grps = s.dev.grps ∧ e.mem = s.dev.mem))
    ∧ (∀ (g : Fin 16) (r : StrRec) (rest : List StrRec), (s.dev.grp g.val).spill = r :: rest →
      s.dev.grpOcc g.val ≤ s.dev.rf (grpReg g.val 0x4C) 15 0 → s.dev.blockAt g.val (s.dev.grp g.val).block ≤ r.time →
      YieldsSome (.spillDrain g) s (fun e => (e.grp g.val).spill = rest ∧ (e.grp g.val).buf = (s.dev.grp g.val).buf ++ [r]))

/-- Ethernet ports (R181 to R183, R207): a received frame counts its FEC codewords and one frame of its row, is copied to the port's
tutor where its drill asks for the row, and waits where its row has a command; a port that is not on takes none; received pauses
hold priorities and end; an address request is answered from the address it asks for, or its answer waits for a pause; links come up
and go down. -/
def Obligations.EthernetPorts : Prop :=
  ∀ (s : State) (p : Fin 2), s.running = true →
    (∀ f : EthFrame,
      let row := s.dev.classify p.val f
      let c := (s.dev.bump (ethCnt p.val 0x14) f.fecCorrected).bump (ethCnt p.val 0x18) f.fecLost
      let off := [(1, 4), (2, 0x1C), (3, 0xC), (5, 8), (6, 0xC), (7, 0), (8, 0), (9, 0), (10, 0xC)]
      let d := (match tfind off row with | some o => c.bump (ethCnt p.val o) | none => c).frameCopy p.val row f
      (s.dev.ethOn p.val = false → Yields (.ethFrame p f) s s.dev)
      ∧ (s.dev.ethOn p.val = true → row ∈ [2, 4, 7, 8, 9] →
        Yields (.ethFrame p f) s (d.setEth p.val { d.eth p.val with rx := (d.eth p.val).rx ++ [(row, f)] }))
      ∧ (s.dev.ethOn p.val = true → ¬ row ∈ [2, 4, 7, 8, 9] → Yields (.ethFrame p f) s d)
      ∧ (row = 1 ↔ f.fecLost ≠ 0 ∨ fcsOk f.raw = false))
    ∧ (∀ (f : EthFrame) (i : Fin 8) (quanta : List Nat),
      (s.dev.eth p.val).rx.find? (fun e => e.1 == 2) = some (2, f) → ethBody f.raw = .pfc (2 ^ i.val) quanta → quanta.getD i.val 0 ≠ 0 →
      bit (s.dev.rf (ethReg p.val 0) 23 16) i.val = true → ¬ i.val ∈ (s.dev.eth p.val).paused →
      Yields (.pfcFrame p) s (s.dev.setEth p.val { s.dev.eth p.val with
        rx := (s.dev.eth p.val).rx.erase (2, f), paused := (s.dev.eth p.val).paused ++ [i.val] }))
    ∧ (∀ pri : Fin 8, pri.val ∈ (s.dev.eth p.val).paused →
      YieldsSome (.pfcRxPauseEnd p pri) s (fun e => ¬ pri.val ∈ (e.eth p.val).paused
        ∧ e.sent = s.dev.sent ++ ((s.dev.eth p.val).tx.filter (fun t => t.1 == pri.val)).map (·.2) ∧ e.mem = s.dev.mem))
    ∧ (∀ (f : EthFrame) (v6 : Bool) (target src : Nat), (s.dev.eth p.val).rx.find? (fun e => e.1 == 4) = some (4, f) →
      ethBody f.raw = .addrReq v6 target src →
      let pri := match ethTag f.raw with | some t => bits t 15 13 | none => s.dev.rf (ethReg p.val 0) 30 28
      let reply : Sent := .addrReply p.val { dmac := ethSrc f.raw, smac := s.dev.ethMac p.val, tag := ethTag f.raw, v6
                                             src := target, dst := src, sport := 0, dport := 0 }
      let rx := (s.dev.eth p.val).rx.erase (4, f)
      (¬ pri ∈ (s.dev.eth p.val).paused → YieldsSome (.addressRequest p) s (fun e =>
        e.sent = s.dev.sent ++ [reply] ∧ (e.eth p.val).rx = rx ∧ e.mem = s.dev.mem))
      ∧ (pri ∈ (s.dev.eth p.val).paused → Yields (.addressRequest p) s (s.dev.setEth p.val { s.dev.eth p.val with
          rx, tx := (s.dev.eth p.val).tx ++ [(pri, reply)] })))
    ∧ ((s.dev.eth p.val).up = false → s.dev.rbit (ethReg p.val 0) 31 = true → (s.dev.seat (1300 + p.val)).role = 15 →
      (s.dev.eth p.val).media ≠ 0 → s.dev.flt.stage < 2 → s.dev.mild (58 + p.val) = true →
      YieldsSome (.ethLinkChg p true) s (fun e => e.eth p.val = { s.dev.eth p.val with up := true } ∧ e.rbit (ethReg p.val 4) 0 = true
        ∧ (e.tutor (1236 + p.val)).events.getLsbD 6 = true))
    ∧ ((s.dev.eth p.val).up = true → YieldsSome (.ethLinkChg p false) s (fun e =>
        e.eth p.val = { s.dev.eth p.val with up := false, tx := [], paused := [] } ∧ e.rbit (ethReg p.val 4) 0 = true))

/-- RoCEv2 and lookups (R199 to R206): the data of a packet in sequence is stored and the sequence goes on, a SEND in a receive slot; a
request takes a slot with its keys; its response or its time-out frees it. -/
def Obligations.RoceAndLookups : Prop :=
  ∀ (s : State) (p : Fin 2), s.running = true →
    (∀ (f : EthFrame) (u : Datagram) (q addr first len : Nat) (send last : Bool), let k := rocePkt u
      (s.dev.eth p.val).rx.find? (fun e => e.1 == 7) = some (7, f) → ethBody f.raw = .udp u →
      s.dev.qpEntry p.val k.qpn = some q → s.dev.rbit (qpReg q 0) 29 = false → k.ce = false →
      let fresh := if k.op.isSend && k.op.starts && (s.dev.qp q).msg.isNone
        then s.dev.takeSlot (s.dev.rn (qpReg q 0x10)) (max 1 (s.dev.rf (qpReg q 0x14) 15 0) * 1024) else none
      k.psn = s.dev.rf (qpReg q 4) 23 0 → s.dev.roceJudge q k (fresh.map (·.1)) = .take addr first len send last →
      YieldsSome (.rocePacket p) s (fun e =>
        e.mem = s.dev.mem.writeN addr k.data ∧ e.rf (qpReg q 4) 23 0 = (k.psn + 1) % 2 ^ 24
        ∧ (e.qp q).msg = (if last then none else some (first, len, send))
        ∧ (last = true → e.rf (qpReg q 0x24) 23 0 = (s.dev.rf (qpReg q 0x24) 23 0 + 1) % 2 ^ 24)))
    ∧ (∀ (f : EthFrame) (u : Datagram) (i : Nat) (a : Alloc), let b := u.data
      (s.dev.eth p.val).rx.find? (fun e => e.1 == 9) = some (9, f) → ethBody f.raw = .udp u →
      s.dev.lookupCheck u.v6 b = .ok → (s.dev.eth p.val).freeSlot = some i → s.dev.alloc (s.dev.rn (ethReg p.val 0x2C)) = some a →
      YieldsSome (.lookupRequest p) s (fun e => e.mem = s.dev.mem.writeN (a.base + 512 * i) (b.drop 32)
        ∧ ∃ k, tfind (e.eth p.val).slots i = some k ∧ k.keys = b.drop 32 ∧ k.step = s.dev.step ∧ k.id = fld b 4 4
          ∧ k.since = s.dev.now))
    ∧ (∀ (q : Nat) (t : Task) (k : LkSlot) (d : Dev) (body : Bytes), s.dev.atWork (1300 + p.val) 15 = some (q, t) →
      let i := bits t.arg 11 0
      t.tag = BitVec.allOnes 48 → bits t.arg 12 12 = p.val → ¬ i ∈ (s.dev.eth p.val).late → tfind (s.dev.eth p.val).slots i = some k →
      ((t.operand 0).map Pkt.length).getD 0 = k.keys.length / 8 * (8 + k.rb) → s.dev.operandData t 0 = (d, some body) →
      YieldsSome (.lookupResponse p) s (fun e => tfind (e.eth p.val).slots i = none ∧ e.task q t.uid = some (t.did .ok [])))
    ∧ (∀ (slot : BitVec 12) (k : LkSlot), tfind (s.dev.eth p.val).slots slot.toNat = some k →
      k.since + s.dev.rf (ethReg p.val 0x30) 15 0 * 256 ≤ s.dev.now →
      YieldsSome (.lookupTimeout p slot) s (fun e => tfind (e.eth p.val).slots slot.toNat = none
        ∧ slot.toNat ∈ (e.eth p.val).late ∧ e.mem = s.dev.mem))

/-! Compression and memory -/

/-- Compression engines and DDR-5 memory (R254, R330, R343, R344, R353 to R356). A free pipe takes the oldest job of the queue after
the one it served last that is not empty; one that its dispatch refuses ends there and leaves the pipe free. A drill's job ends: the
pipe is free, and the scheduler tutor's queue 0x0D holds its reply; a ring's job ends: its entry is finished with status and length. GO copies the staging registers into the drill queue, or sets STAGE_FULL when it is full. A refresh changes nothing. A scrub
read that finds nothing moves on, a corrected error is counted, an uncorrectable line is poisoned. A dying tensor descriptor that no
task uses goes, its handle's generation counts, and its completion is posted. -/
def Obligations.CompressionAndMemory : Prop :=
  (∀ (x : PipeSt) (i : Nat) (j : CmpJob) (l : List CmpJob), 1 ≤ i → i ≤ 3 →
      let queue (k : Nat) := if k = 0 then x.ring else if k = 1 then x.seat_ else x.drill
      queue ((x.last + i) % 3) = j :: l → (∀ h, 1 ≤ h → h < i → queue ((x.last + h) % 3) = []) →
      ∃ y, x.next = some (j, y) ∧ y.last = (x.last + i) % 3 ∧ y.run = x.run
        ∧ (if (x.last + i) % 3 = 0 then y.ring else if (x.last + i) % 3 = 1 then y.seat_ else y.drill) = l)
  ∧ ∀ s : State,
    (∀ (q : Quad) (pack : Bool) (j : CmpJob) (y : PipeSt), s.running = true →
      let d := if pack then s.dev.packWaiting q.val else s.dev
      (d.pipe q.val pack).run = none → d.rbit (qdrReg q.val 0x800) 0 = true → d.flt.stage = 0 →
      (d.pipe q.val pack).next = some (j, y) →
      (d.jobBad j = none → Yields (.cmpJobStart q pack) s (d.setPipe q.val pack { y with run := some j }))
      ∧ (∀ e, d.jobBad j = some e → d.replyWaits q.val j = false →
        Yields (.cmpJobStart q pack) s ((d.setPipe q.val pack y).endJob q.val pack j e)))
    ∧ (∀ (q : Quad) (pack : Bool) (j : CmpJob) (d : Dev) (e : JobEnd), s.running = true →
      (s.dev.pipe q.val pack).run = some j → j.src = .drill →
      (tget [] (s.dev.tutor (1224 + q.val)).queues 0x0D).length < 8 → s.dev.runJob q.val j = (d, e) →
      YieldsSome (.cmpJobEnd q pack) s (fun f => (f.pipe q.val pack).run = none ∧ f.mem = d.mem
        ∧ tget [] (f.tutor (1224 + q.val)).queues 0x0D = tget [] (s.dev.tutor (1224 + q.val)).queues 0x0D
            ++ [[BitVec.ofNat 32 (e.status.code + e.detail * 256), BitVec.ofNat 32 e.len, BitVec.ofNat 32 (Job.user j.desc), 0, 0, 0, 0, 0]]))
    ∧ (∀ (q : Quad) (pack : Bool) (j : CmpJob) (uid : Nat) (t : Task) (d : Dev) (e : JobEnd), s.running = true →
      (s.dev.pipe q.val pack).run = some j → j.src = .ring uid → s.dev.task q.val uid = some t → s.dev.runJob q.val j = (d, e) →
      YieldsSome (.cmpJobEnd q pack) s (fun f => (f.pipe q.val pack).run = none ∧ f.mem = d.mem
        ∧ f.task q.val uid = some { t with phase := .finished, status := e.status, detail := e.detail, result := e.len }))
    ∧ (∀ (m : Master) (q : Quad) (v : Word), s.mayWrite m (qdrReg q.val 0x8C0) = true → maskedBit v 0 true →
      let desc := (List.range 32).flatMap (fun i => leB 2 (s.dev.rf (qdrReg q.val (0x840 + 4 * i)) 15 0))
      let x := s.dev.pipe q.val (Job.pack desc)
      (x.drill.length < 8 → Yields (.cmpSubmitGo m q v) s (s.dev.setPipe q.val (Job.pack desc)
        { x with drill := x.drill ++ [{ desc := desc, src := .drill, tag := Job.tag desc }] }))
      ∧ (8 ≤ x.drill.length → Yields (.cmpSubmitGo m q v) s (s.dev.wbit (qdrReg q.val 0x804) 2 true)))
    ∧ (∀ ch : Fin 16, s.running = true → Yields (.dramRefresh ch) s s.dev)
    ∧ (∀ ch : Fin 16, s.running = true → s.dev.rbit (memCh ch.val 0) 3 = true → s.dev.rbit (memCh ch.val 4) 0 = true →
      s.dev.rf (MEM + 0xC) 15 0 ≠ 0 →
      let c := s.dev.rn2 (memCh ch.val 0x1C)
      let a := s.dev.deviceAddr ch.val c
      tfind s.dev.lines a = none →
      Yields (.scrubRead ch .clean) s (s.dev.wn2 (memCh ch.val 0x1C) (if s.dev.chCap ch.val ≤ c + 64 then 0 else c + 64))
      ∧ (∀ k, YieldsSome (.scrubRead ch (.corrected k)) s (fun d =>
          d.rn (memCh ch.val 8) = min (s.dev.rn (memCh ch.val 8) + 1) (2 ^ 32 - 1) ∧ d.mem = s.dev.mem ∧ d.lines = s.dev.lines))
      ∧ YieldsSome (.scrubRead ch .uncorrectable) s (fun d =>
          d.rn (memCh ch.val 0xC) = min (s.dev.rn (memCh ch.val 0xC) + 1) (2 ^ 32 - 1) ∧ tfind d.lines a = some 3
          ∧ d.rbit (MEM + 8) 2 = true ∧ d.mem = s.dev.mem))
    ∧ (∀ (slot : BitVec 16) (t : TDesc) (o : Origin), s.running = true → tfind s.dev.tds slot.toNat = some t → t.dying = some o →
      (∀ u ∈ t.users, ∀ e ∈ s.dev.selected, ¬ (e.1 = u.1 ∧ e.2.uid = u.2)) → o.ring = 0 →
      YieldsSome (.tdescRemove slot) s (fun d => tfind d.tds slot.toNat = none
        ∧ tget 0 d.tdGen slot.toNat = (tget 0 s.dev.tdGen slot.toNat + 1) % 256 ∧ d.mem = s.dev.mem
        ∧ ∃ c, d.host.cpls = s.dev.host.cpls ++ [c] ∧ c.origin = o ∧ c.status = .ok ∧ c.ring = 1))

/-! The Miohar fabric -/

/-- Ports of the fabric (R362, R365 to R371, R386, R388): signal, training frames and their control symbols, time-outs, lane tests, the
exchange of parameters to ACTIVE, flit groups in sequence, groups whose code fails and NAKs, shunts. The descrambler undoes the
scrambler. -/
def Obligations.FabricPorts : Prop :=
  (∀ (reg : Nat) (l : List Bool), (descramble reg (scramble reg l).1).1 = l)
  ∧ ∀ s : State,
    (∀ p : Fin 4, s.running = true → (s.dev.port p.val).state = 1 →
      (if p.val < 2 then s.dev.fab.rowClosed else s.dev.fab.colClosed) = false →
      YieldsSome (.linkSignalDetect p) s (fun d => d.mem = s.dev.mem ∧ d.port p.val = { s.dev.port p.val with
        state := 2, since := s.dev.now, lanes := (List.range 8).map (fun i => (i, { pre := 2, post := 6 })) }))
    ∧ (∀ p : Fin 4, 2 ≤ (s.dev.port p.val).state → s.dev.mild (44 + p.val) = true →
      let down (d : Dev) : Prop := (d.port p.val).state = 1 ∧ (d.port p.val).width = 0
        ∧ d.rn (prtReg p.val 0x1C) = min (s.dev.rn (prtReg p.val 0x1C) + 1) (2 ^ 32 - 1) ∧ d.mem = s.dev.mem
      (s.running = true → YieldsSome (.linkSignalLoss p) s down)
      ∧ (∀ m v, s.mayWrite m (prtReg p.val 0) = true → maskedBit v 1 true → unmaskedBit v 0 → YieldsSome (.portRetrain m p v) s down))
    ∧ (∀ (p : Fin 4) (limit : Nat), s.running = true →
      ((s.dev.port p.val).state, limit) ∈ [(2, 6000000), (3, 800000), (4, 400000)] →
      (limit < s.dev.now - (s.dev.port p.val).since →
        YieldsSome (.trainingTimeout p) s (fun d => (d.port p.val).state = 1 ∧ d.mem = s.dev.mem))
      ∧ (s.dev.now - (s.dev.port p.val).since ≤ limit → Yields (.trainingTimeout p) s s.dev))
    ∧ (∀ (p : Fin 4) (lane : Fin 8) (marks control : List Nat), s.running = true →
      let x := s.dev.port p.val
      let l := tget {} x.lanes lane.val
      (controlBytes control = none → Yields (.trainingFrame p lane marks control) s s.dev)
      ∧ (∀ c, controlBytes control = some c →
        (x.state = 2 → YieldsSome (.trainingFrame p lane marks control) s (fun d =>
          tget {} (d.port p.val).lanes lane.val
            = { l.request (fld c 2 1) (fld c 3 1) with eqFrames := if bit (fld c 5 1) 0 then l.eqFrames + 1 else 0 }
          ∧ d.mem = s.dev.mem ∧ (d.port p.val).state
            = (if (List.range 8).all (fun i => 16 ≤ (tget {} (d.port p.val).lanes i).eqFrames) then 3 else 2)))
        ∧ (x.state = 3 → x.ownOffer = none → Yields (.trainingFrame p lane marks control) s (s.dev.setPort p.val { x with
            offer := if fld c 0 1 = 3 then some (bits (fld c 6 1) 2 0) else x.offer
            lanes := tput x.lanes lane.val
              { l with choiceFrames := 0, locked := l.locked || marks == laneMarker lane.val 0x155 } }))))
    ∧ (∀ (p : Fin 4) (errors : List Nat), s.running = true → (s.dev.port p.val).state = 3 → (s.dev.port p.val).offer = none →
      YieldsSome (.prbsTestEnd p errors) s (fun d =>
        (∀ i, i < 8 → (tget {} (d.port p.val).lanes i).ok
          = some ((tget {} (s.dev.port p.val).lanes i).locked && decide (errors.getD i 0 < 16)))
        ∧ (d.port p.val).state = 3 ∧ d.regs = s.dev.regs ∧ d.mem = s.dev.mem))
    ∧ (∀ (p : Fin 4) (r : Bytes), s.running = true → (s.dev.port p.val).state = 4 → r.length = 32 → fld r 0 2 = 0xA6F0 → fld r 2 1 = 1 →
      let x := s.dev.port p.val
      let n := if x.paramRec = r then x.paramCount + 1 else 1
      (n < 3 → YieldsSome (.paramRecord p r) s (fun d => (d.port p.val).state = 4 ∧ (d.port p.val).paramRec = r
        ∧ (d.port p.val).paramCount = n ∧ d.sent.length = s.dev.sent.length + 1 ∧ d.mem = s.dev.mem))
      ∧ (3 ≤ n → s.dev.paramOk p.val r = true → bit (fld r 3 1) 0 = true → s.dev.rbit (prtReg p.val 0) 2 = false →
          s.dev.mild (44 + p.val) = true →
          YieldsSome (.paramRecord p r) s (fun d => (d.port p.val).state = 5
            ∧ (d.port p.val).partner = some (bits (fld r 4 2) 10 0, fld r 6 1, fld r 16 4)
            ∧ (d.tutor (1232 + p.val)).events.getLsbD 6 = true ∧ d.mem = s.dev.mem))
      ∧ (3 ≤ n → s.dev.paramOk p.val r = false → s.dev.mild (48 + p.val) = true →
          YieldsSome (.paramRecord p r) s (fun d => (d.port p.val).state = 1 ∧ d.rbit (prtReg p.val 4) 14 = true)))
    ∧ (∀ (p : Fin 4) (errors : List (Nat × Nat)) (gseq ack : BitVec 12) (kind : BitVec 2) (flits : List Bytes), s.running = true →
      let x := s.dev.port p.val
      let last := (x.rxSeq + 4095) % 4096
      let nak (d : Dev) : Prop := (d.port p.val).episode = true ∧ (d.port p.val).naks = x.naks + 1 ∧ (d.port p.val).nakAt = s.dev.now
        ∧ (d.port p.val).rxSeq = x.rxSeq ∧ (∃ n l f, d.sent = s.dev.sent ++ [.group p.val 1 n last f l]) ∧ d.mem = s.dev.mem
      (x.state ≠ 5 → Yields (.flitGroup p errors gseq ack kind flits) s s.dev)
      ∧ (x.state = 5 → x.uncorrectable errors = 0 → kind.toNat < 2 → gseq.toNat = x.rxSeq →
        YieldsSome (.flitGroup p errors gseq ack kind flits) s (fun d =>
          (d.port p.val).rxSeq = (gseq.toNat + 1) % 4096 ∧ (d.port p.val).episode = false ∧ d.mem = s.dev.mem
          ∧ d.rn (prtReg p.val 0xC) = min (s.dev.rn (prtReg p.val 0xC) + x.corrected errors) (2 ^ 32 - 1)
          ∧ d.fab.arrived = s.dev.fab.arrived ++ (flits.filter (fun f => Flit.kind f == 1)).map (fun f => (p.val, f))))
      ∧ (x.state = 5 → x.naks < max 1 (s.dev.rf (prtReg p.val 0) 15 8) →
        (x.uncorrectable errors ≠ 0 → x.episode = false → YieldsSome (.flitGroup p errors gseq ack kind flits) s nak)
        ∧ (x.episode = true → 3200 ≤ s.dev.now - x.nakAt → YieldsSome (.nakRepeat p) s nak)))
    ∧ (∀ column closed : Bool, s.running = true →
      let now (d : Dev) : Bool := if column then d.fab.colClosed else d.fab.rowClosed
      let ports : List Nat := if column then [2, 3] else [0, 1]
      (closed = s.dev.shuntWanted column → now s.dev ≠ closed →
        YieldsSome (.shuntChange column closed) s (fun d => now d = closed ∧ d.mem = s.dev.mem
          ∧ ∀ p ∈ ports, (d.tutor (1232 + p)).events.getLsbD 6 = true))
      ∧ (closed ≠ s.dev.shuntWanted column → Yields (.shuntChange column closed) s s.dev))

/-- Messages of the fabric (R372, R376, R379 to R384, R390, R393): a message of one flit for this station is delivered, one for
another goes on; a TASK message lands in a slot and its packet sets out; acknowledgements, fences and time-outs; link-state records;
the pending station table and its commit; the entry that the ring manager gives a station itself, and that a station with no ACTIVE
link reaches no other (R377). -/
def Obligations.FabricMessages : Prop :=
  (∀ (db : Tbl Bytes) (rows cols x dest : Nat), (∀ port, port < 4 → linkEnd db x port = none) →
    ringEntry db rows cols x dest = if x = dest then 0x8000 else 0)
  ∧ ∀ s : State,
    (∀ (p : Nat) (f : Bytes) (rest : List (Nat × Bytes)), s.running = true → s.dev.fab.arrived = (p, f) :: rest →
      Flit.first f = true → Flit.last f = true →
      (Flit.dest f = s.dev.station → Flit.abort f = false → bits (fld f 9 1) 4 0 ≤ 3 → bit (Flit.flags f) 0 = false →
        tfind s.dev.fab.released (Flit.src f) = none → s.dev.fab.heldMsgs = [] →
        let msg : Msg :=
          { port := p, src := Flit.src f, gen := Flit.gen f, await_ := false, cls := bits (fld f 9 1) 4 0, tc := Flit.tc f
            ackReq := bit (Flit.flags f) 2, id := fld f 10 2, len := fld f 12 4, data := (f.drop 16).take (fld f 12 4) }
        YieldsSome .flitForward s (fun d =>
          d.fab.arrived = rest ∧ d.mem = s.dev.mem ∧ d.fab.inbox = s.dev.fab.inbox ++ [msg]))
      ∧ (∀ o, Flit.dest f ≠ s.dev.station → Flit.hops f < 126 → s.dev.outPort (Flit.dest f) (bit (Flit.flags f) 1) = some o →
          tfind s.dev.fab.locks (o * 4 + Flit.tc f) = none →
          YieldsSome .flitForward s (fun d => d.fab.arrived = rest ∧ d.fab.inbox = s.dev.fab.inbox
            ∧ d.rn (LNK + 0x30) = s.dev.rn (LNK + 0x30) ∧ d.mem = s.dev.mem)))
    ∧ (∀ (m : Msg) (a : Nat) (d2 : Dev), s.running = true → s.dev.fab.inbox.find? (fun m => m.cls == 0) = some m →
      let pkt := slice m.data 0 32
      let slotB := s.dev.rn (LNK + 0x24)
      s.dev.staleSum m = false → s.dev.rn (LNK + 0x20) ≠ 0 → (s.dev.alloc (s.dev.rn (LNK + 0x20))).isSome = true → (m.data.drop 32).length ≤ slotB →
      32 ≤ m.len → Pkt.length pkt = m.len - 32 →
      (Dev.takeSlot { s.dev with fab := { s.dev.fab with inbox := s.dev.fab.inbox.erase m } } (s.dev.rn (LNK + 0x20)) slotB) = some (a, d2) →
      YieldsSome .taskMessage s (fun d => d.fab.inbox = s.dev.fab.inbox.erase m
        ∧ d.mem.readN a (m.data.drop 32).length = m.data.drop 32
        ∧ (d.quad (Pkt.quad pkt)).inbound = (s.dev.quad (Pkt.quad pkt)).inbound
            ++ [(2, { pkt := patch pkt 16 (leB 8 a), sender := 0x6000 + m.port })]))
    ∧ (∀ (m : Msg) (q uid since : Nat) (t : Task), s.running = true → s.dev.fab.inbox.find? (fun m => m.cls == 3) = some m →
      s.dev.fab.waits.find? (fun w => w.1 == m.id) = some (m.id, .result q uid, since) → s.dev.task q uid = some t →
      t.acks.filter (· != m.id) ≠ [] →
      YieldsSome .ack s (fun d => d.fab.inbox = s.dev.fab.inbox.erase m ∧ (∀ w ∈ d.fab.waits, w.1 ≠ m.id) ∧ d.mem = s.dev.mem
        ∧ d.task q uid = some { t with acks := t.acks.filter (· != m.id), status := t.status.or (some (Status.ofCode (fld m.data 0 1))) }))
    ∧ (∀ (src : BitVec 11) (gen : Byte), s.running = true →
      let go (m : Msg) : Bool := m.src == src.toNat && genOlder gen.toNat m.gen
      YieldsSome (.fenceFlit src gen) s (fun d => tfind d.fab.fences src.toNat = some gen.toNat ∧ d.mem = s.dev.mem
        ∧ d.fab.inbox = s.dev.fab.inbox ++ s.dev.fab.heldMsgs.filter go
        ∧ d.fab.heldMsgs = s.dev.fab.heldMsgs.filter (fun m => !go m)))
    ∧ (∀ (src : BitVec 11) (t : Nat), s.running = true → tfind s.dev.fab.heldSince src.toNat = some t →
      (s.dev.fenceTmo ≤ s.dev.now - t → YieldsSome (.fenceTimeout src) s (fun d => d.mem = s.dev.mem
        ∧ d.fab.inbox = s.dev.fab.inbox ++ s.dev.fab.heldMsgs.filter (fun m => m.src == src.toNat)
        ∧ d.fab.heldMsgs = s.dev.fab.heldMsgs.filter (fun m => !(m.src == src.toNat))))
      ∧ (s.dev.now - t < s.dev.fenceTmo → Yields (.fenceTimeout src) s s.dev))
    ∧ (∀ (msg : BitVec 16) (c since : Nat), s.running = true →
      s.dev.fab.waits.find? (fun w => w.1 == msg.toNat) = some (msg.toNat, .read c, since) →
      (since + s.dev.reqTmo ≤ s.dev.now → YieldsSome (.requestTimeout msg) s (fun d => (∀ w ∈ d.fab.waits, w.1 ≠ msg.toNat)
        ∧ d.rn (LNK + 0x38) = min (s.dev.rn (LNK + 0x38) + 1) (2 ^ 32 - 1) ∧ d.mem = s.dev.mem))
      ∧ (s.dev.now < since + s.dev.reqTmo → Yields (.requestTimeout msg) s s.dev))
    ∧ (∀ (port : Fin 4) (origin : BitVec 11) (seq : Word) (payload : Bytes), s.running = true →
      (s.dev.rbit LNK 31 = true → (∀ c, tfind s.dev.fab.rings origin.toNat = some c → c < seq.toNat) →
        YieldsSome (.ringFlit port origin seq payload) s (fun d => tfind d.fab.rings origin.toNat = some seq.toNat
          ∧ tfind d.fab.ringDb origin.toNat = some payload ∧ d.mem = s.dev.mem))
      ∧ (s.dev.rbit LNK 31 = false → Yields (.ringFlit port origin seq payload) s s.dev)
      ∧ (∀ c, tfind s.dev.fab.rings origin.toNat = some c → seq.toNat ≤ c → Yields (.ringFlit port origin seq payload) s s.dev))
    ∧ (∀ (m : Master) (p : Fin 4) (v : Word), s.mayWrite m (prtReg p.val 0x104) = true → v.toNat / 65536 = 0xFFFF →
      let i := s.dev.rf (prtReg p.val 0x100) 10 0
      Yields (.stDataWrite m p v) s
        (Dev.wn { s.dev with fab := { s.dev.fab with pending := tput s.dev.fab.pending i (v.toNat % 65536) } } (prtReg p.val 0x100)
          ((i + 1) % 2048)))
    ∧ (∀ (m : Master) (p : Fin 4) (v : Word), s.mayWrite m (prtReg p.val 0x108) = true → maskedBit v 0 true →
      YieldsSome (.tableCommit m p v) s (fun d =>
        (∀ i, i < 2048 → i ≠ s.dev.station → d.rf (LNK + 0x10000 + 4 * i) 15 0 = tget 0 s.dev.fab.pending i % 65536)
        ∧ d.rf (LNK + 0x14) 7 0 = (s.dev.rf (LNK + 0x14) 7 0 + 1) % 256 ∧ d.rbit (LNK + 4) 2 = true ∧ d.mem = s.dev.mem
        ∧ ∀ i, i < 2048 → i ≠ s.dev.station → tget 0 s.dev.fab.pending i ≠ s.dev.rf (LNK + 0x10000 + 4 * i) 15 0 →
            tfind d.fab.awaits i = some (s.dev.now + s.dev.fenceTmo)))

/-! Faults -/

/-- Faults and escalation (R134, R395 to R408): an occurrence of an assigned source sets its sticky bit; from level 2 it counts and
starts the grace timer, at level 3 it isolates the module. An expired timer raises the stage, or restarts while escalation is off,
or records the cause and resets the module. An acknowledgement of the newest number stops the timer, RESUME leaves QUIESCE. A tile
that fails for the first time holds no task and is recorded; one that fails during a seating is quarantined at once. -/
def Obligations.Faults : Prop :=
  ∀ s : State,
    (∀ (source : Fin 512) (unit detail addr : Nat), s.running = true →
      let level := s.dev.fltLevel source.val
      (fltAssigned source.val = false → Yields (.faultOccurrence source unit detail addr) s s.dev)
      ∧ (fltAssigned source.val = true → YieldsSome (.faultOccurrence source unit detail addr) s (fun d =>
          d.rbit (FLT + 0x100 + source.val / 32 * 4) (source.val % 32) = true ∧ d.mem = s.dev.mem
          ∧ d.fltSeq = (if 2 ≤ level then (s.dev.fltSeq + 1) % 2 ^ 32 else s.dev.fltSeq)
          ∧ (2 ≤ level → d.flt.timerRun = true)
          ∧ (level < 2 → d.flt.timerRun = s.dev.flt.timerRun)
          ∧ d.flt.stage = (if level = 3 then max s.dev.flt.stage 2 else s.dev.flt.stage))))
    ∧ (s.running = true → s.dev.flt.timerRun = true → s.dev.flt.started + s.dev.flt.limit * 400000 ≤ s.dev.now →
      let renewed (d : Dev) : Prop := d.flt.started = s.dev.now ∧ d.flt.limit = s.dev.grace ∧ d.flt.timerRun = true ∧ d.mem = s.dev.mem
      (s.dev.rbit FLT 30 = false → LeavesSome .graceExpiry s (fun d => renewed d ∧ d.flt.stage = s.dev.flt.stage ∧ d.regs = s.dev.regs))
      ∧ (s.dev.rbit FLT 30 = true → s.dev.flt.stage < 2 →
          LeavesSome .graceExpiry s (fun d => renewed d ∧ d.flt.stage = s.dev.flt.stage + 1))
      ∧ (s.dev.rbit FLT 30 = true → 2 ≤ s.dev.flt.stage → ∃ t, exec .graceExpiry s = .next t
          ∧ t.care.run.stage = 2 ∧ t.care.bootCnt = s.care.bootCnt ∧ t.dev.plt = {} ∧ t.dev.mem = {} ∧ t.dev.flt = {}
          ∧ t.dev.rn (FLT + 0x24) = 2 ^ 31 + 3 * 2 ^ 16 + s.dev.rf (FLT + 0x20) 8 0 ∧ t.dev.rn2 (FLT + 0x28) = s.dev.step))
    ∧ (∀ (m : Master) (v : Word), s.mayWrite m (FLT + 0x14) = true →
      (v.toNat = s.dev.fltSeq → Yields (.fltAck m v) s { s.dev with flt := { s.dev.flt with timerRun := false } })
      ∧ (v.toNat ≠ s.dev.fltSeq → Yields (.fltAck m v) s s.dev))
    ∧ (∀ (m : Master) (v : Word), s.mayWrite m FLT = true → v.getLsbD 31 = true → s.dev.flt.stage = 1 → s.dev.flt.timerRun = false →
      YieldsSome (.resume m v) s (fun d => d.flt = { s.dev.flt with stage := 0 } ∧ d.mem = s.dev.mem))
    ∧ (∀ tile : TileIx, s.dev.rbit (tilReg tile.val 0xE0) 31 = false →
      let failed (detail : Nat) (d : Dev) : Prop := (d.seat tile.val).opened = false
        ∧ (d.seat tile.val).slots = [] ∧ d.rn (tilReg tile.val 0xE0) = 2 ^ 31 + detail ∧ d.flt.stepAborted = true
        ∧ (s.dev.plt.seating = false → tile.val ∈ d.plt.failedTiles) ∧ (s.dev.plt.seating = true → d.quar tile.val = true)
      (∀ (detail : Fin 5) (addr : Nat), s.running = true → detail.val ≠ 0 → YieldsSome (.tileFail tile detail addr) s (failed detail.val))
      ∧ (∀ m v, s.mayWrite m (tilReg tile.val 8) = true → maskedBit v 0 true → ¬ maskedBit v 1 true →
          YieldsSome (.tileInject m tile v) s (failed 4)))

/-! Supply, resets, boot -/

/-- Power, resets and boot (R413 to R420, R425): the power stage and its one retry; a module reset keeps fuses, flash and the boot
count; the boot stages and where they halt; the console prints a line when stage 4 begins, when stage 2 overruns and when stage 3 or 4 fails (R430). -/
def Obligations.SupplyAndBoot : Prop :=
  ∀ s : State,
    let dark (t : State) (p : Power) : Prop := t.care.power = p ∧ t.care.kept = s.care.kept ∧ t.care.bootCnt = 0 ∧ t.dev.regs = []
      ∧ t.dev.mem = {} ∧ t.dev.plt = {} ∧ t.care.resetLow = s.care.resetLow ∧ t.care.perstLow = s.care.perstLow
    let anew (t : State) : Prop := t.care.bootCnt = s.care.bootCnt ∧ t.dev.regs = keptRegs s.dev ∧ t.dev.mem = {} ∧ t.dev.plt = {}
      ∧ t.care.power = s.care.power
    let prints (d : Dev) (stage : Nat) (fail : Option Nat) : Dev :=
      d.emit (.console stage fail ((Config.consoleText stage fail).flatMap uartChar))
    (∀ mV, s.care.power = .off →
      (37000 < mV → ∃ t, exec (.powerInputRise mV) s = .next t ∧ dark t (.starting false) ∧ t.care.run = { stage := 1 })
      ∧ (mV ≤ 37000 → exec (.powerInputRise mV) s = .next s))
    ∧ (∀ mV, mV < 34000 → ∃ t, exec (.powerInputFall mV) s = .next t ∧ dark t .off ∧ t.care.run = {})
    ∧ (∀ b, s.care.power = .starting b →
      (∃ t, exec .powerGood s = .next t ∧ dark t .good ∧ t.care.run = { stage := if s.care.resetLow then 0 else 2 })
      ∧ (∃ t, exec .powerGoodTimeout s = .next t ∧ dark t (if b then .failed else .waiting)))
    ∧ (s.care.power = .waiting → ∃ t, exec .powerStageRetry s = .next t ∧ dark t (.starting true))
    ∧ (∀ low, low ≠ s.care.resetLow → s.care.power = .good → ∃ t, exec (.modResetPin low) s = .next t ∧ anew t
        ∧ t.care.resetLow = low ∧ t.care.run = { stage := if low then 0 else 2 })
    ∧ (∀ m v, s.mayWrite m (CTK + 0x20) = true →
      (v.toNat = 0xA5A5 → ∃ t, exec (.ctkReset m v) s = .next t ∧ anew t ∧ t.care.run = { stage := 2 })
      ∧ (v.toNat ≠ 0xA5A5 → exec (.ctkReset m v) s = .next s))
    ∧ (∀ f : BootFindings, s.running = true → s.care.run.halted = false →
      (s.care.run.stage = 2 → ∃ t, exec (.bootStageEnd f) s = .next t
        ∧ t.care.run.stage = (if f.securityOk then 3 else 2) ∧ t.care.run.selftestOk = (f.securityOk || s.care.run.selftestOk)
        ∧ t.care.run.halted = !f.securityOk ∧ t.care.run.fail = (if f.securityOk then s.care.run.fail else 2) ∧ t.care.kept = s.care.kept)
      ∧ (s.care.run.stage = 3 → s.care.kept.pending = false → s.care.run.triedOther = false →
        let k := s.care.kept
        let ok (i : Fin 2) : Bool := imageOk (k.slot i)
          && k.signed [1] ((k.slot i).take ((k.slot i).length - 128)) ((k.slot i).drop ((k.slot i).length - 128))
          && decide (k.minSvn ≤ imageSvn (k.slot i))
        ∃ t, exec (.bootStageEnd f) s = .next t
          ∧ t.dev = (if ok k.active || ok (other k.active) then prints s.dev 4 none else prints s.dev 3 (some 3))
          ∧ t.care.run.stage = (if ok k.active || ok (other k.active) then 4 else 3)
          ∧ (ok k.active = true → t.care.run.slot = k.active ∧ t.care.run.svn = imageSvn (k.slot k.active))
          ∧ (ok k.active = false → ok (other k.active) = true → t.care.run.slot = other k.active)
          ∧ (ok k.active = false → ok (other k.active) = false → t.care.run.halted = true ∧ t.care.run.fail = 3))
      ∧ (s.care.run.stage = 4 → ∃ t, exec (.bootStageEnd f) s = .next t ∧ t.care.run.stage = 5
          ∧ (∀ q ∈ f.quarantined, t.dev.quar q.val = true)
          ∧ t.care.run.fail = (if t.dev.stagingOk then s.care.run.fail else 5) ∧ t.dev.mem = s.dev.mem)
      ∧ (s.care.run.stage = 5 → s.care.run.linksDone = false → s.dev.ringEn 0 = false → ∃ t, exec (.bootStageEnd f) s = .next t
          ∧ t.care.run.stage = (if s.care.perstLow then 5 else 6) ∧ t.care.run.linksDone = true
          ∧ t.care.bootCnt = (if s.care.perstLow then s.care.bootCnt else (s.care.bootCnt + 1) % 2 ^ 32)
          ∧ t.dev.station = bits (fld s.care.kept.config 0 2) 10 0 ∧ t.dev.mem = s.dev.mem))
    ∧ (∀ overrun : Bool, s.running = true → s.care.run.halted = false → s.care.run.linksDone = false →
      (s.care.run.stage = 2 → ∃ t, exec (.bootStageFail overrun) s = .next t ∧ t.care.run = { s.care.run with fail := 2, halted := true }
        ∧ (overrun = true → t.dev = prints s.dev 2 (some 2)))
      ∧ (s.care.run.stage = 4 → s.care.run.onPending = false →
          exec (.bootStageFail overrun) s
            = .next { s with care := { s.care with run := { s.care.run with fail := 4, halted := true } }
                             dev := prints s.dev 4 (some 4) }))

/-- From stage 9 on, whatever is commanded, the stage is 9 or the module is back at or before the start of its boot; and the boots
that reached stage 6 since power-on are counted: the count goes up by one when a command takes the module from stage 5 to stage 6
or past it, falls to 0 when power is lost or comes, and stays otherwise (R420). -/
def Obligations.StageNineHolds : Prop :=
  ∀ (c : Instr) (s t : State), exec c s = .next t →
    (s.care.run.stage = 9 → t.care.run.stage = 9 ∨ t.care.run.stage ≤ 2)
    ∧ (s.care.run.stage ≤ 5 → 6 ≤ t.care.run.stage → t.care.bootCnt = (s.care.bootCnt + 1) % 2 ^ 32)
    ∧ (¬ (s.care.run.stage ≤ 5 ∧ 6 ≤ t.care.run.stage) →
        t.care.bootCnt = s.care.bootCnt ∨ (t.care.bootCnt = 0 ∧ c.ofSupply = true))

/-! The caretaker's mailboxes, clocks, telemetry -/

/-- Mailbox commands (R421 to R428): each ends with its status, not busy, and with its effect on fuses and flash; a signature that
does not verify leaves a firmware image unmarked and an owner key in force. -/
def Obligations.Mailboxes : Prop :=
  ∀ (s : State),
    let k := s.care.kept
    let ended (t : State) (m : Mbox) (n : Nat) : Prop := (t.mbox m).busy = false ∧ (t.mbox m).status = 0 ∧ (t.mbox m).result = n
    (∀ (m : Mbox) (len : Nat), s.mbRuns m 1 = true → k.certs.length ≤ s.mbLen m len →
      ∃ t, exec (.getCert m len true) s = .next t ∧ ended t m k.certs.length ∧ t.care.kept = k
        ∧ t.dev = s.dev.emit (match m with
            | .host => .hostWrite (s.care.run.mbHost.addrLo.toNat + s.care.run.mbHost.addrHi.toNat * 2 ^ 32) k.certs false
            | .i3c => .i3c k.certs))
    ∧ (∀ (m : Mbox) (b : Bytes), s.mbRuns m 2 = true → 352 ≤ s.mbLen m b.length → 32 ≤ b.length →
      ∃ t sig, exec (.attest m (some b)) s = .next t ∧ ended t m 352 ∧ slice (s.reportBody b) 8 32 = b.take 32
        ∧ sig = Config.identitySign (Config.sha384 (s.reportBody b))
        ∧ t.dev = s.dev.emit (match m with
            | .host => .hostWrite (s.care.run.mbHost.addrLo.toNat + s.care.run.mbHost.addrHi.toNat * 2 ^ 32) (s.reportBody b ++ sig) false
            | .i3c => .i3c (s.reportBody b ++ sig)))
    ∧ (∀ b : Bytes, s.mbRuns .host 3 = true → let n := s.care.run.mbHost.len.toNat
      let image := slice b 0 n
      n ≤ 0x1000000 → n = fld b 8 4 → imageOk image = true →
      ∃ t, exec (.fwUpdate (some b)) s = .next t ∧ (t.mbox .host).busy = false ∧ t.care.kept.slot (other k.active) = image
        ∧ t.care.kept.slot k.active = k.slot k.active ∧ t.care.kept.active = k.active
        ∧ t.care.kept.pending = (k.signed [1] (image.take (image.length - 128)) (image.drop (image.length - 128))
            && decide (k.minSvn ≤ imageSvn image)))
    ∧ (s.mbRuns .host 4 = true →
      ∃ t, exec .fwCommitSvn s = .next t ∧ (t.mbox .host).busy = false ∧ t.dev = s.dev
        ∧ t.care.kept = (if k.minSvn < s.care.run.svn ∧ k.raises < 63 then { k with minSvn := s.care.run.svn, raises := k.raises + 1 } else k))
    ∧ (∀ b : Bytes, s.mbRuns .host 5 = true → s.care.run.mbHost.len = 232 → k.ownerSet = false →
      (∀ x ∈ slice b 104 128, x = 0#8) → 4 ≤ fld b 0 1 → fld b 0 1 < 16 → tfind k.owners (fld b 0 1) = none → fld b 4 1 = 4 →
      ∃ t, exec (.enrollKey (some b)) s = .next t ∧ (t.mbox .host).busy = false ∧ t.dev = s.dev
        ∧ t.care.kept.ownerSet = Config.onCurve (slice b 4 97)
        ∧ tfind t.care.kept.owners (fld b 0 1)
            = if Config.onCurve (slice b 4 97) then some { key := slice b 4 97, revoked := false } else none)
    ∧ (∀ (b : Bytes) (o : OwnerKey), s.mbRuns .host 6 = true → s.care.run.mbHost.len = 192 → blockOk (slice b 64 128) = true →
      tfind k.owners (fld b 0 1) = some o → o.revoked = false → 2 ≤ (k.owners.filter (fun e => !e.2.revoked)).length →
      ∃ t, exec (.revokeKey (some b)) s = .next t ∧ (t.mbox .host).busy = false ∧ t.dev = s.dev
        ∧ tfind t.care.kept.owners (fld b 0 1) = some { o with revoked := k.signed [3] (slice b 0 64) (slice b 64 128) })
    ∧ (∀ (m : Mbox) (b : Bytes), s.mbRuns m 7 = true → s.mbLen m b.length = 64 → configOk (slice b 0 64) = true →
      ∃ t, exec (.setConfig m (some b)) s = .next t ∧ ended t m 0 ∧ t.dev = s.dev ∧ t.care.kept = { k with config := slice b 0 64 })
    ∧ (∀ m : Mbox, s.mbRuns m 8 = true → ∃ t, exec (.moduleReset m) s = .next t ∧ t.care.run = { stage := 2 }
        ∧ t.care.bootCnt = s.care.bootCnt ∧ t.dev.regs = keptRegs s.dev ∧ t.dev.mem = {})

/-- Clock steps and telemetry (R406, R429, R431, R432): the thermal and the power step go up by one above their limit, down by one
below it after 100 ms, and stay between; the step in force is the largest of the three. A refresh stores the sensors' values and
counts. A medium is taken from a module, one that fails raises its fault. ALIVE toggles at stage 9 outside ISOLATE. -/
def Obligations.ClocksAndTelemetry : Prop :=
  ∀ s : State, s.running = true →
    let r := s.care.run
    let long (t : Option Nat) : Prop := ∀ n, t = some n → n + 40000000 ≤ s.dev.now
    (∀ die0 die1 : Int, ∃ t, exec (.thermalEval die0 die1) s = .next t
      ∧ t.care.run.s = max (max t.care.run.sT t.care.run.sP) t.care.run.floor ∧ t.care.run.sP = r.sP ∧ t.care.run.floor = r.floor
      ∧ (let hi : Int := (min 100 (bits r.therm 15 8) : Nat) * 10
         let lo : Int := (bits r.therm 7 0 : Nat) * 10
         (hi < max die0 die1 → t.care.run.sT = min 15 (r.sT + 1))
         ∧ (max die0 die1 ≤ hi → max die0 die1 < lo → long r.sTAt → t.care.run.sT = r.sT - 1)
         ∧ (max die0 die1 ≤ hi → lo ≤ max die0 die1 → t.care.run.sT = r.sT)))
    ∧ (∀ p : Nat, ∃ t, exec (.powerCapEval p) s = .next t
      ∧ t.care.run.s = max (max t.care.run.sT t.care.run.sP) t.care.run.floor ∧ t.care.run.sT = r.sT ∧ t.care.run.floor = r.floor
      ∧ (let lim := min 1800 (max 600 r.pcap) * 10
         (r.pcap = 0 → t.care.run.sP = 0)
         ∧ (r.pcap ≠ 0 → lim < p → t.care.run.sP = min 15 (r.sP + 1) ∧ (r.sP = 15 → t.care.run.pcapUnmet = true))
         ∧ (r.pcap ≠ 0 → 16 * p < 15 * lim → long r.sPAt → t.care.run.sP = r.sP - 1)
         ∧ (r.pcap ≠ 0 → p ≤ lim → 15 * lim ≤ 16 * p → t.care.run.sP = r.sP)))
    ∧ (∀ x : Sensors, ∃ t, exec (.telemetryRefresh x) s = .next t ∧ t.dev = s.dev ∧ t.care.kept = s.care.kept
      ∧ t.care.run.telSeq = (r.telSeq + 1) % 2 ^ 32
      ∧ tfind t.care.run.tel 0x100 = some (BitVec.ofNat 32 x.vin) ∧ tfind t.care.run.tel 0x104 = some (BitVec.ofNat 32 x.iin)
      ∧ tfind t.care.run.tel 0x108 = some (BitVec.ofNat 32 x.pin) ∧ tfind t.care.run.tel 0x160 = some (BitVec.ofInt 32 x.coolant)
      ∧ (∀ n, n < 3 → tfind t.care.run.tel (0x110 + 4 * n) = some (BitVec.ofInt 32 (x.dies.getD n 0)))
      ∧ ∀ n, n < 16 → tfind t.care.run.tel (0x120 + 4 * n)
          = some (match x.dimms.getD n none with | some v => BitVec.ofInt 32 v | none => 0x80000000#32))
    ∧ (∀ (p : Fin 2) (medium : Nat), 5 ≤ r.stage →
      (medium < 4 → Leaves (.osfpPoll p medium true) s (s.dev.setEth p.val { s.dev.eth p.val with media := medium }))
      ∧ (∀ healthy : Bool, (4 ≤ medium ∨ healthy = false) → LeavesSome (.osfpPoll p medium healthy) s (fun d =>
          d.rbit (FLT + 0x100 + (56 + p.val) / 32 * 4) ((56 + p.val) % 32) = true)))
    ∧ (r.stage = 9 → s.dev.flt.stage < 2 →
      Leaves .aliveToggle s { s.dev with alive := !s.dev.alive, sent := s.dev.sent ++ [.alive (!s.dev.alive)] })

/-- What reset leaves (R30, R48, R143, R360, R386, R401, R414, R417, R433 and the reset columns of the register tables): no command
waits, boot is at stage 2 and none has been counted, the clock steps are zero, the tracker is UNLOCKED at step 0 with its set-up at
the tables' values, no ring is enabled and rings 0 to 2 are of kinds 0 to 2, no Plat is seated, the escalation stage is RUN, ports
are DISABLED behind closed shunts, every tile and cluster tells its place, no tutor runs, nothing has been sent. -/
def Obligations.ResetState : Prop :=
  let s := State.reset
  let d := s.dev
  s.pending = [] ∧ s.ClockOk ∧ s.running = true ∧ s.hostUp = false ∧ s.care.run.stage = 2 ∧ s.care.bootCnt = 0
  ∧ s.ctkRead 0x14 = 0x5F5A ∧ s.ctkRead 0x10 = 0
  ∧ d.pht.mode = .unlocked ∧ d.pht.step = 0 ∧ d.rbit PHT 31 = false ∧ d.rn (PHT + 0xC) = 0x1F40 ∧ d.rn (PHT + 0x10) = 0xFA0
  ∧ d.rn (PHT + 0x14) = 4
  ∧ (∀ n, n < 16384 → d.ringEn n = false ∧ d.ringLog n = 4 ∧ (n ≤ 2 → d.ringKind n = n)) ∧ d.rbit TTB 31 = false
  ∧ (∀ n, n < 256 → d.ttValid n = false)
  ∧ d.plt.seated = false ∧ d.plt.seating = false ∧ d.flt.stage = 0 ∧ d.flt.timerRun = false ∧ d.rn FLT = 0x40000002
  ∧ d.rn (FLT + 8) = 0x3E8 ∧ (∀ n, n < 16 → d.rn (FLT + 0x100 + 4 * n) = 0)
  ∧ d.rn (MEM + 0xC) = 0x18 ∧ d.rn (MEM + 0x10) = 0x1000 ∧ d.rn (LNK + 0x18) = 0x0C35009C ∧ d.rn (LNK + 0x24) = 0x10000
  ∧ (∀ p, p < 4 → (d.port p).state = 0) ∧ d.fab.rowClosed = true ∧ d.fab.colClosed = true
  ∧ (∀ t, t < 1152 → d.rn (tilReg t 0) = t * 0x10000 + tileId t) ∧ (∀ c, c < 72 → d.rn (cluReg c 0) = c * 0x10000 + clusterId c)
  ∧ (∀ t, t < 1238 → (d.tutor t).mode = .halted) ∧ d.sent = []

/-! Rules stated whole -/

/-- Words of an armed timetable entry (R32): a write of word A or C, by a register write or under any mask, changes nothing but
ARMED_WRITE. A write of word B that would leave a reserved ACTION armed keeps VALID and ACTION, takes the other fields and sets
BAD_ACTION. An entry whose VALID has been cleared does not fire. -/
def Obligations.ArmedWordsIgnoreWrites : Prop :=
  ∀ (s : State) (n : BitVec 8),
    (∀ o, (o = 0 ∨ o = 8) → s.dev.ttValid n.toNat = true →
      (∀ mask v free, mask ≠ 0 → s.dev.putReg (ttbEnt n.toNat o) mask v free = s.dev.wbit (TTB + 4) 0 true)
      ∧ (∀ (m : Master) (a : BitVec 48) (v : DWord) (x y : Nat), m ≠ .tutor → s.reaches m = true → a.toNat % 4 = 0 →
          s.dev.reach m a.toNat = (.reg (ttbEnt n.toNat o), x, y) →
          Yields (.registerWrite m a 4 v) s (s.dev.wbit (TTB + 4) 0 true)))
    ∧ (∀ (m : Master) (v : Word), let b := ttbEnt n.toNat 4
      s.mayWrite m b = true → v.getLsbD 31 = true → 10 < bits v.toNat 23 16 →
      YieldsSome (.ttbEntryArm m n v) s (fun d =>
        d.ttValid n.toNat = s.dev.ttValid n.toNat ∧ d.rf b 23 16 = s.dev.rf b 23 16 ∧ d.rbit b 30 = v.getLsbD 30
        ∧ d.rf b 15 8 = bits v.toNat 15 8 ∧ d.rbit (TTB + 4) 1 = true ∧ d.ttTarget n.toNat = s.dev.ttTarget n.toNat
        ∧ d.SameButRegs s.dev))
    ∧ (s.running = true → s.dev.ttValid n.toNat = false → Yields (.ttbEntryFire n) s s.dev)

/-- CRC-32C (R219): the reflected polynomial 0x82F6_3B78 bit by bit, initial value and final exclusive-or 0xFFFF_FFFF, and the value
over the nine ASCII bytes; CRC32C and CRCB do its inner step over four bytes and over one. -/
def Obligations.CrcIsReflected : Prop :=
  let bitStep (c : Word) : Word := (c >>> 1) ^^^ (if c.getLsbD 0 then 0x82F63B78 else 0)
  let byteStep (c : Word) (b : Byte) : Word := (List.range 8).foldl (fun c _ => bitStep c) (c ^^^ b.setWidth 32)
  (∀ b : Bytes, crc32c b = b.foldl byteStep 0xFFFFFFFF ^^^ 0xFFFFFFFF)
  ∧ crc32c [0x31, 0x32, 0x33, 0x34, 0x35, 0x36, 0x37, 0x38, 0x39] = 0xE3069283
  ∧ AluLaw .crc32c 0x0E (fun a b => byteStep (byteStep (byteStep (byteStep a (b.extractLsb' 0 8)) (b.extractLsb' 8 8))
      (b.extractLsb' 16 8)) (b.extractLsb' 24 8))
  ∧ AluLaw .crcb 0x0F (fun a b => byteStep a (b.extractLsb' 0 8))
end

