-- ==== Sys2Proof/Laws/Memory.lean ====
section
/-! SUPPORT. Every memory operation keeps the canonical form, and State.reset's memory has it. -/
namespace Sys2Proof.Machine

/-- The canonical form as propositions: keys strictly rise, and every cell differs from what its address reads as unlisted. -/
theorem Memory.wf_iff (m : Memory) :
    m.wf = true ↔ rising m.cells = true ∧ ∀ c ∈ m.cells, c.2 ≠ unlisted m.scrambled c.1 := by
  simp [Memory.wf]

/-- Rising as pairwise order. -/
theorem rising_iff (l : List Host.Cell) : rising l = true ↔ l.Pairwise (fun a b => a.1 < b.1) := by
  induction l with
  | nil => simp [rising]
  | cons a t ih =>
    cases t with
    | nil => simp [rising]
    | cons b t =>
      simp only [rising, Bool.and_eq_true, decide_eq_true_eq, ih]
      constructor
      · rintro ⟨h, hp⟩
        refine List.pairwise_cons.mpr ⟨?_, hp⟩
        intro c hc
        rcases List.mem_cons.mp hc with rfl | hc
        · exact h
        · exact Nat.lt_trans h ((List.pairwise_cons.mp hp).1 c hc)
      · intro hp
        have h := List.pairwise_cons.mp hp
        exact ⟨h.1 b (by simp), h.2⟩

theorem eraseCell_sublist (l : List Host.Cell) (a : Nat) : (eraseCell l a).Sublist l := by
  induction l with
  | nil => exact List.Sublist.slnil
  | cons e t ih =>
    obtain ⟨k, v⟩ := e
    simp only [eraseCell]
    split
    · exact List.Sublist.cons _ ih
    · exact List.Sublist.cons_cons _ ih

theorem mem_insertCell {l : List Host.Cell} {a : Nat} {b : Byte} {c : Host.Cell} (h : c ∈ insertCell l a b) :
    c = (a, b) ∨ c ∈ l := by
  induction l with
  | nil => simp [insertCell] at h; exact .inl h
  | cons e t ih =>
    obtain ⟨k, v⟩ := e
    simp only [insertCell] at h
    split at h
    · rcases List.mem_cons.mp h with h | h
      · exact .inl h
      · exact .inr h
    · split at h
      · rcases List.mem_cons.mp h with h | h
        · exact .inl h
        · exact .inr (List.mem_cons_of_mem _ h)
      · rcases List.mem_cons.mp h with h | h
        · exact .inr (h ▸ List.mem_cons_self)
        · rcases ih h with h | h
          · exact .inl h
          · exact .inr (List.mem_cons_of_mem _ h)

theorem insertCell_pairwise {l : List Host.Cell} (a : Nat) (b : Byte) (h : l.Pairwise (fun x y => x.1 < y.1)) :
    (insertCell l a b).Pairwise (fun x y => x.1 < y.1) := by
  induction l with
  | nil => simp [insertCell]
  | cons e t ih =>
    obtain ⟨k, v⟩ := e
    have ht := List.pairwise_cons.mp h
    simp only [insertCell]
    split
    · next hk =>
      refine List.pairwise_cons.mpr ⟨?_, h⟩
      intro c hc
      rcases List.mem_cons.mp hc with rfl | hc
      · exact hk
      · exact Nat.lt_trans hk (ht.1 c hc)
    · split
      · next hk => subst hk; exact List.pairwise_cons.mpr ⟨ht.1, ht.2⟩
      · next hk hne =>
        refine List.pairwise_cons.mpr ⟨?_, ih ht.2⟩
        intro c hc
        rcases mem_insertCell hc with rfl | hc
        · show k < a
          omega
        · exact ht.1 c hc

/-- A write of one byte keeps the canonical form. -/
theorem Memory.write_wf {m : Memory} (a : Nat) (b : Byte) (h : m.wf = true) : (m.write a b).wf = true := by
  rw [Memory.wf_iff, rising_iff] at h ⊢
  unfold Memory.write
  split
  · exact ⟨h.1.sublist (eraseCell_sublist _ _), fun c hc => h.2 c ((eraseCell_sublist _ _).subset hc)⟩
  · next hb =>
    refine ⟨insertCell_pairwise a b h.1, fun c hc => ?_⟩
    rcases mem_insertCell hc with rfl | hc
    · exact hb
    · exact h.2 c hc

/-- A write of a string of bytes keeps it. -/
theorem Memory.writeN_wf (bs : Bytes) : ∀ {m : Memory} (a : Nat), m.wf = true → (m.writeN a bs).wf = true := by
  induction bs with
  | nil => intro m a h; exact h
  | cons b t ih => intro m a h; exact ih (a + 1) (Memory.write_wf a b h)

/-- Taking the cells of a range out keeps it. -/
theorem Memory.filter_wf {m : Memory} (p : Host.Cell → Bool) (h : m.wf = true) :
    ({ m with cells := m.cells.filter p } : Memory).wf = true := by
  rw [Memory.wf_iff, rising_iff] at h ⊢
  exact ⟨h.1.sublist List.filter_sublist, fun c hc => h.2 c (List.mem_filter.mp hc).1⟩

/-- Zeroing a range keeps it. -/
theorem Memory.zero_wf {m : Memory} (lo len : Nat) (h : m.wf = true) : (m.zero lo len).wf = true := by
  unfold Memory.zero
  split
  · exact Memory.filter_wf _ h
  · exact Memory.writeN_wf _ lo h

/-- Making a range undefined keeps it: the cells that stay lie outside the range. -/
theorem Memory.scramble_wf {m : Memory} (lo len seed : Nat) (h : m.wf = true) : (m.scramble lo len seed).wf = true := by
  rw [Memory.wf_iff, rising_iff] at h ⊢
  refine ⟨h.1.sublist List.filter_sublist, fun c hc => ?_⟩
  have hc := List.mem_filter.mp hc
  have hr : ¬ (lo ≤ c.1 ∧ c.1 < lo + len) := by
    have h2 := hc.2
    simp only [Bool.not_eq_true', Bool.and_eq_false_iff, decide_eq_false_iff_not] at h2
    omega
  simp only [Memory.scramble, unlisted]
  rw [if_neg hr]
  exact h.2 c hc.1

/-- The memory of the state after reset is in canonical form. -/
theorem reset_mem_wf : State.reset.dev.mem.wf = true := by decide

end Sys2Proof.Machine
end

