-- ==== Sys2Proof/Laws/State.lean ====
section
/-! SUPPORT. One lemma per field per update: what a named update of the device or the state leaves alone, each true by rfl. -/
namespace Sys2Proof.Machine

@[simp] theorem Dev.wr_now (d : Dev) (a : Nat) (w : Word) : (d.wr a w).now = d.now := rfl
@[simp] theorem Dev.wr_qcyc64 (d : Dev) (a : Nat) (w : Word) : (d.wr a w).qcyc64 = d.qcyc64 := rfl
@[simp] theorem Dev.wr_free (d : Dev) (a : Nat) (w : Word) : (d.wr a w).free = d.free := rfl
@[simp] theorem Dev.wr_sent (d : Dev) (a : Nat) (w : Word) : (d.wr a w).sent = d.sent := rfl
@[simp] theorem Dev.wr_mem (d : Dev) (a : Nat) (w : Word) : (d.wr a w).mem = d.mem := rfl
@[simp] theorem Dev.wr_lines (d : Dev) (a : Nat) (w : Word) : (d.wr a w).lines = d.lines := rfl
@[simp] theorem Dev.wr_pht (d : Dev) (a : Nat) (w : Word) : (d.wr a w).pht = d.pht := rfl
@[simp] theorem Dev.wr_emits (d : Dev) (a : Nat) (w : Word) : (d.wr a w).emits = d.emits := rfl
@[simp] theorem Dev.wr_fb (d : Dev) (a : Nat) (w : Word) : (d.wr a w).fb = d.fb := rfl
@[simp] theorem Dev.wr_att (d : Dev) (a : Nat) (w : Word) : (d.wr a w).att = d.att := rfl
@[simp] theorem Dev.wr_plt (d : Dev) (a : Nat) (w : Word) : (d.wr a w).plt = d.plt := rfl
@[simp] theorem Dev.wr_quads (d : Dev) (a : Nat) (w : Word) : (d.wr a w).quads = d.quads := rfl
@[simp] theorem Dev.wr_seats (d : Dev) (a : Nat) (w : Word) : (d.wr a w).seats = d.seats := rfl
@[simp] theorem Dev.wr_tutors (d : Dev) (a : Nat) (w : Word) : (d.wr a w).tutors = d.tutors := rfl
@[simp] theorem Dev.wr_host (d : Dev) (a : Nat) (w : Word) : (d.wr a w).host = d.host := rfl
@[simp] theorem Dev.wr_flt (d : Dev) (a : Nat) (w : Word) : (d.wr a w).flt = d.flt := rfl
@[simp] theorem Dev.wr_fab (d : Dev) (a : Nat) (w : Word) : (d.wr a w).fab = d.fab := rfl
@[simp] theorem Dev.wr_joins (d : Dev) (a : Nat) (w : Word) : (d.wr a w).joins = d.joins := rfl
@[simp] theorem Dev.wr_seqs (d : Dev) (a : Nat) (w : Word) : (d.wr a w).seqs = d.seqs := rfl
@[simp] theorem Dev.wr_tds (d : Dev) (a : Nat) (w : Word) : (d.wr a w).tds = d.tds := rfl
@[simp] theorem Dev.wr_tdGen (d : Dev) (a : Nat) (w : Word) : (d.wr a w).tdGen = d.tdGen := rfl
@[simp] theorem Dev.wr_tdJob (d : Dev) (a : Nat) (w : Word) : (d.wr a w).tdJob = d.tdJob := rfl
@[simp] theorem Dev.wr_mx (d : Dev) (a : Nat) (w : Word) : (d.wr a w).mx = d.mx := rfl
@[simp] theorem Dev.wr_emb (d : Dev) (a : Nat) (w : Word) : (d.wr a w).emb = d.emb := rfl
@[simp] theorem Dev.wr_pipes (d : Dev) (a : Nat) (w : Word) : (d.wr a w).pipes = d.pipes := rfl
@[simp] theorem Dev.wr_ichs (d : Dev) (a : Nat) (w : Word) : (d.wr a w).ichs = d.ichs := rfl
@[simp] theorem Dev.wr_caches (d : Dev) (a : Nat) (w : Word) : (d.wr a w).caches = d.caches := rfl
@[simp] theorem Dev.wr_eths (d : Dev) (a : Nat) (w : Word) : (d.wr a w).eths = d.eths := rfl
@[simp] theorem Dev.wr_strs (d : Dev) (a : Nat) (w : Word) : (d.wr a w).strs = d.strs := rfl
@[simp] theorem Dev.wr_grps (d : Dev) (a : Nat) (w : Word) : (d.wr a w).grps = d.grps := rfl
@[simp] theorem Dev.wr_qps (d : Dev) (a : Nat) (w : Word) : (d.wr a w).qps = d.qps := rfl
@[simp] theorem Dev.wr_pulses (d : Dev) (a : Nat) (w : Word) : (d.wr a w).pulses = d.pulses := rfl
@[simp] theorem Dev.wr_alive (d : Dev) (a : Nat) (w : Word) : (d.wr a w).alive = d.alive := rfl

@[simp] theorem Dev.wn_now (d : Dev) (a n : Nat) : (d.wn a n).now = d.now := rfl
@[simp] theorem Dev.wn_qcyc64 (d : Dev) (a n : Nat) : (d.wn a n).qcyc64 = d.qcyc64 := rfl
@[simp] theorem Dev.wn_free (d : Dev) (a n : Nat) : (d.wn a n).free = d.free := rfl
@[simp] theorem Dev.wn_sent (d : Dev) (a n : Nat) : (d.wn a n).sent = d.sent := rfl
@[simp] theorem Dev.wn_mem (d : Dev) (a n : Nat) : (d.wn a n).mem = d.mem := rfl
@[simp] theorem Dev.wn_lines (d : Dev) (a n : Nat) : (d.wn a n).lines = d.lines := rfl
@[simp] theorem Dev.wn_pht (d : Dev) (a n : Nat) : (d.wn a n).pht = d.pht := rfl
@[simp] theorem Dev.wn_emits (d : Dev) (a n : Nat) : (d.wn a n).emits = d.emits := rfl
@[simp] theorem Dev.wn_fb (d : Dev) (a n : Nat) : (d.wn a n).fb = d.fb := rfl
@[simp] theorem Dev.wn_att (d : Dev) (a n : Nat) : (d.wn a n).att = d.att := rfl
@[simp] theorem Dev.wn_plt (d : Dev) (a n : Nat) : (d.wn a n).plt = d.plt := rfl
@[simp] theorem Dev.wn_quads (d : Dev) (a n : Nat) : (d.wn a n).quads = d.quads := rfl
@[simp] theorem Dev.wn_seats (d : Dev) (a n : Nat) : (d.wn a n).seats = d.seats := rfl
@[simp] theorem Dev.wn_tutors (d : Dev) (a n : Nat) : (d.wn a n).tutors = d.tutors := rfl
@[simp] theorem Dev.wn_host (d : Dev) (a n : Nat) : (d.wn a n).host = d.host := rfl
@[simp] theorem Dev.wn_flt (d : Dev) (a n : Nat) : (d.wn a n).flt = d.flt := rfl
@[simp] theorem Dev.wn_fab (d : Dev) (a n : Nat) : (d.wn a n).fab = d.fab := rfl
@[simp] theorem Dev.wn_joins (d : Dev) (a n : Nat) : (d.wn a n).joins = d.joins := rfl
@[simp] theorem Dev.wn_seqs (d : Dev) (a n : Nat) : (d.wn a n).seqs = d.seqs := rfl
@[simp] theorem Dev.wn_tds (d : Dev) (a n : Nat) : (d.wn a n).tds = d.tds := rfl
@[simp] theorem Dev.wn_tdGen (d : Dev) (a n : Nat) : (d.wn a n).tdGen = d.tdGen := rfl
@[simp] theorem Dev.wn_tdJob (d : Dev) (a n : Nat) : (d.wn a n).tdJob = d.tdJob := rfl
@[simp] theorem Dev.wn_mx (d : Dev) (a n : Nat) : (d.wn a n).mx = d.mx := rfl
@[simp] theorem Dev.wn_emb (d : Dev) (a n : Nat) : (d.wn a n).emb = d.emb := rfl
@[simp] theorem Dev.wn_pipes (d : Dev) (a n : Nat) : (d.wn a n).pipes = d.pipes := rfl
@[simp] theorem Dev.wn_ichs (d : Dev) (a n : Nat) : (d.wn a n).ichs = d.ichs := rfl
@[simp] theorem Dev.wn_caches (d : Dev) (a n : Nat) : (d.wn a n).caches = d.caches := rfl
@[simp] theorem Dev.wn_eths (d : Dev) (a n : Nat) : (d.wn a n).eths = d.eths := rfl
@[simp] theorem Dev.wn_strs (d : Dev) (a n : Nat) : (d.wn a n).strs = d.strs := rfl
@[simp] theorem Dev.wn_grps (d : Dev) (a n : Nat) : (d.wn a n).grps = d.grps := rfl
@[simp] theorem Dev.wn_qps (d : Dev) (a n : Nat) : (d.wn a n).qps = d.qps := rfl
@[simp] theorem Dev.wn_pulses (d : Dev) (a n : Nat) : (d.wn a n).pulses = d.pulses := rfl
@[simp] theorem Dev.wn_alive (d : Dev) (a n : Nat) : (d.wn a n).alive = d.alive := rfl

@[simp] theorem Dev.wbit_now (d : Dev) (a i : Nat) (b : Bool) : (d.wbit a i b).now = d.now := rfl
@[simp] theorem Dev.wbit_qcyc64 (d : Dev) (a i : Nat) (b : Bool) : (d.wbit a i b).qcyc64 = d.qcyc64 := rfl
@[simp] theorem Dev.wbit_free (d : Dev) (a i : Nat) (b : Bool) : (d.wbit a i b).free = d.free := rfl
@[simp] theorem Dev.wbit_sent (d : Dev) (a i : Nat) (b : Bool) : (d.wbit a i b).sent = d.sent := rfl
@[simp] theorem Dev.wbit_mem (d : Dev) (a i : Nat) (b : Bool) : (d.wbit a i b).mem = d.mem := rfl
@[simp] theorem Dev.wbit_lines (d : Dev) (a i : Nat) (b : Bool) : (d.wbit a i b).lines = d.lines := rfl
@[simp] theorem Dev.wbit_pht (d : Dev) (a i : Nat) (b : Bool) : (d.wbit a i b).pht = d.pht := rfl
@[simp] theorem Dev.wbit_emits (d : Dev) (a i : Nat) (b : Bool) : (d.wbit a i b).emits = d.emits := rfl
@[simp] theorem Dev.wbit_fb (d : Dev) (a i : Nat) (b : Bool) : (d.wbit a i b).fb = d.fb := rfl
@[simp] theorem Dev.wbit_att (d : Dev) (a i : Nat) (b : Bool) : (d.wbit a i b).att = d.att := rfl
@[simp] theorem Dev.wbit_plt (d : Dev) (a i : Nat) (b : Bool) : (d.wbit a i b).plt = d.plt := rfl
@[simp] theorem Dev.wbit_quads (d : Dev) (a i : Nat) (b : Bool) : (d.wbit a i b).quads = d.quads := rfl
@[simp] theorem Dev.wbit_seats (d : Dev) (a i : Nat) (b : Bool) : (d.wbit a i b).seats = d.seats := rfl
@[simp] theorem Dev.wbit_tutors (d : Dev) (a i : Nat) (b : Bool) : (d.wbit a i b).tutors = d.tutors := rfl
@[simp] theorem Dev.wbit_host (d : Dev) (a i : Nat) (b : Bool) : (d.wbit a i b).host = d.host := rfl
@[simp] theorem Dev.wbit_flt (d : Dev) (a i : Nat) (b : Bool) : (d.wbit a i b).flt = d.flt := rfl
@[simp] theorem Dev.wbit_fab (d : Dev) (a i : Nat) (b : Bool) : (d.wbit a i b).fab = d.fab := rfl
@[simp] theorem Dev.wbit_joins (d : Dev) (a i : Nat) (b : Bool) : (d.wbit a i b).joins = d.joins := rfl
@[simp] theorem Dev.wbit_seqs (d : Dev) (a i : Nat) (b : Bool) : (d.wbit a i b).seqs = d.seqs := rfl
@[simp] theorem Dev.wbit_tds (d : Dev) (a i : Nat) (b : Bool) : (d.wbit a i b).tds = d.tds := rfl
@[simp] theorem Dev.wbit_tdGen (d : Dev) (a i : Nat) (b : Bool) : (d.wbit a i b).tdGen = d.tdGen := rfl
@[simp] theorem Dev.wbit_tdJob (d : Dev) (a i : Nat) (b : Bool) : (d.wbit a i b).tdJob = d.tdJob := rfl
@[simp] theorem Dev.wbit_mx (d : Dev) (a i : Nat) (b : Bool) : (d.wbit a i b).mx = d.mx := rfl
@[simp] theorem Dev.wbit_emb (d : Dev) (a i : Nat) (b : Bool) : (d.wbit a i b).emb = d.emb := rfl
@[simp] theorem Dev.wbit_pipes (d : Dev) (a i : Nat) (b : Bool) : (d.wbit a i b).pipes = d.pipes := rfl
@[simp] theorem Dev.wbit_ichs (d : Dev) (a i : Nat) (b : Bool) : (d.wbit a i b).ichs = d.ichs := rfl
@[simp] theorem Dev.wbit_caches (d : Dev) (a i : Nat) (b : Bool) : (d.wbit a i b).caches = d.caches := rfl
@[simp] theorem Dev.wbit_eths (d : Dev) (a i : Nat) (b : Bool) : (d.wbit a i b).eths = d.eths := rfl
@[simp] theorem Dev.wbit_strs (d : Dev) (a i : Nat) (b : Bool) : (d.wbit a i b).strs = d.strs := rfl
@[simp] theorem Dev.wbit_grps (d : Dev) (a i : Nat) (b : Bool) : (d.wbit a i b).grps = d.grps := rfl
@[simp] theorem Dev.wbit_qps (d : Dev) (a i : Nat) (b : Bool) : (d.wbit a i b).qps = d.qps := rfl
@[simp] theorem Dev.wbit_pulses (d : Dev) (a i : Nat) (b : Bool) : (d.wbit a i b).pulses = d.pulses := rfl
@[simp] theorem Dev.wbit_alive (d : Dev) (a i : Nat) (b : Bool) : (d.wbit a i b).alive = d.alive := rfl

@[simp] theorem Dev.wf_now (d : Dev) (a hi lo v : Nat) : (d.wf a hi lo v).now = d.now := rfl
@[simp] theorem Dev.wf_qcyc64 (d : Dev) (a hi lo v : Nat) : (d.wf a hi lo v).qcyc64 = d.qcyc64 := rfl
@[simp] theorem Dev.wf_free (d : Dev) (a hi lo v : Nat) : (d.wf a hi lo v).free = d.free := rfl
@[simp] theorem Dev.wf_sent (d : Dev) (a hi lo v : Nat) : (d.wf a hi lo v).sent = d.sent := rfl
@[simp] theorem Dev.wf_mem (d : Dev) (a hi lo v : Nat) : (d.wf a hi lo v).mem = d.mem := rfl
@[simp] theorem Dev.wf_lines (d : Dev) (a hi lo v : Nat) : (d.wf a hi lo v).lines = d.lines := rfl
@[simp] theorem Dev.wf_pht (d : Dev) (a hi lo v : Nat) : (d.wf a hi lo v).pht = d.pht := rfl
@[simp] theorem Dev.wf_emits (d : Dev) (a hi lo v : Nat) : (d.wf a hi lo v).emits = d.emits := rfl
@[simp] theorem Dev.wf_fb (d : Dev) (a hi lo v : Nat) : (d.wf a hi lo v).fb = d.fb := rfl
@[simp] theorem Dev.wf_att (d : Dev) (a hi lo v : Nat) : (d.wf a hi lo v).att = d.att := rfl
@[simp] theorem Dev.wf_plt (d : Dev) (a hi lo v : Nat) : (d.wf a hi lo v).plt = d.plt := rfl
@[simp] theorem Dev.wf_quads (d : Dev) (a hi lo v : Nat) : (d.wf a hi lo v).quads = d.quads := rfl
@[simp] theorem Dev.wf_seats (d : Dev) (a hi lo v : Nat) : (d.wf a hi lo v).seats = d.seats := rfl
@[simp] theorem Dev.wf_tutors (d : Dev) (a hi lo v : Nat) : (d.wf a hi lo v).tutors = d.tutors := rfl
@[simp] theorem Dev.wf_host (d : Dev) (a hi lo v : Nat) : (d.wf a hi lo v).host = d.host := rfl
@[simp] theorem Dev.wf_flt (d : Dev) (a hi lo v : Nat) : (d.wf a hi lo v).flt = d.flt := rfl
@[simp] theorem Dev.wf_fab (d : Dev) (a hi lo v : Nat) : (d.wf a hi lo v).fab = d.fab := rfl
@[simp] theorem Dev.wf_joins (d : Dev) (a hi lo v : Nat) : (d.wf a hi lo v).joins = d.joins := rfl
@[simp] theorem Dev.wf_seqs (d : Dev) (a hi lo v : Nat) : (d.wf a hi lo v).seqs = d.seqs := rfl
@[simp] theorem Dev.wf_tds (d : Dev) (a hi lo v : Nat) : (d.wf a hi lo v).tds = d.tds := rfl
@[simp] theorem Dev.wf_tdGen (d : Dev) (a hi lo v : Nat) : (d.wf a hi lo v).tdGen = d.tdGen := rfl
@[simp] theorem Dev.wf_tdJob (d : Dev) (a hi lo v : Nat) : (d.wf a hi lo v).tdJob = d.tdJob := rfl
@[simp] theorem Dev.wf_mx (d : Dev) (a hi lo v : Nat) : (d.wf a hi lo v).mx = d.mx := rfl
@[simp] theorem Dev.wf_emb (d : Dev) (a hi lo v : Nat) : (d.wf a hi lo v).emb = d.emb := rfl
@[simp] theorem Dev.wf_pipes (d : Dev) (a hi lo v : Nat) : (d.wf a hi lo v).pipes = d.pipes := rfl
@[simp] theorem Dev.wf_ichs (d : Dev) (a hi lo v : Nat) : (d.wf a hi lo v).ichs = d.ichs := rfl
@[simp] theorem Dev.wf_caches (d : Dev) (a hi lo v : Nat) : (d.wf a hi lo v).caches = d.caches := rfl
@[simp] theorem Dev.wf_eths (d : Dev) (a hi lo v : Nat) : (d.wf a hi lo v).eths = d.eths := rfl
@[simp] theorem Dev.wf_strs (d : Dev) (a hi lo v : Nat) : (d.wf a hi lo v).strs = d.strs := rfl
@[simp] theorem Dev.wf_grps (d : Dev) (a hi lo v : Nat) : (d.wf a hi lo v).grps = d.grps := rfl
@[simp] theorem Dev.wf_qps (d : Dev) (a hi lo v : Nat) : (d.wf a hi lo v).qps = d.qps := rfl
@[simp] theorem Dev.wf_pulses (d : Dev) (a hi lo v : Nat) : (d.wf a hi lo v).pulses = d.pulses := rfl
@[simp] theorem Dev.wf_alive (d : Dev) (a hi lo v : Nat) : (d.wf a hi lo v).alive = d.alive := rfl

@[simp] theorem Dev.bump_now (d : Dev) (a n : Nat) : (d.bump a n).now = d.now := rfl
@[simp] theorem Dev.bump_qcyc64 (d : Dev) (a n : Nat) : (d.bump a n).qcyc64 = d.qcyc64 := rfl
@[simp] theorem Dev.bump_free (d : Dev) (a n : Nat) : (d.bump a n).free = d.free := rfl
@[simp] theorem Dev.bump_sent (d : Dev) (a n : Nat) : (d.bump a n).sent = d.sent := rfl
@[simp] theorem Dev.bump_mem (d : Dev) (a n : Nat) : (d.bump a n).mem = d.mem := rfl
@[simp] theorem Dev.bump_lines (d : Dev) (a n : Nat) : (d.bump a n).lines = d.lines := rfl
@[simp] theorem Dev.bump_pht (d : Dev) (a n : Nat) : (d.bump a n).pht = d.pht := rfl
@[simp] theorem Dev.bump_emits (d : Dev) (a n : Nat) : (d.bump a n).emits = d.emits := rfl
@[simp] theorem Dev.bump_fb (d : Dev) (a n : Nat) : (d.bump a n).fb = d.fb := rfl
@[simp] theorem Dev.bump_att (d : Dev) (a n : Nat) : (d.bump a n).att = d.att := rfl
@[simp] theorem Dev.bump_plt (d : Dev) (a n : Nat) : (d.bump a n).plt = d.plt := rfl
@[simp] theorem Dev.bump_quads (d : Dev) (a n : Nat) : (d.bump a n).quads = d.quads := rfl
@[simp] theorem Dev.bump_seats (d : Dev) (a n : Nat) : (d.bump a n).seats = d.seats := rfl
@[simp] theorem Dev.bump_tutors (d : Dev) (a n : Nat) : (d.bump a n).tutors = d.tutors := rfl
@[simp] theorem Dev.bump_host (d : Dev) (a n : Nat) : (d.bump a n).host = d.host := rfl
@[simp] theorem Dev.bump_flt (d : Dev) (a n : Nat) : (d.bump a n).flt = d.flt := rfl
@[simp] theorem Dev.bump_fab (d : Dev) (a n : Nat) : (d.bump a n).fab = d.fab := rfl
@[simp] theorem Dev.bump_joins (d : Dev) (a n : Nat) : (d.bump a n).joins = d.joins := rfl
@[simp] theorem Dev.bump_seqs (d : Dev) (a n : Nat) : (d.bump a n).seqs = d.seqs := rfl
@[simp] theorem Dev.bump_tds (d : Dev) (a n : Nat) : (d.bump a n).tds = d.tds := rfl
@[simp] theorem Dev.bump_tdGen (d : Dev) (a n : Nat) : (d.bump a n).tdGen = d.tdGen := rfl
@[simp] theorem Dev.bump_tdJob (d : Dev) (a n : Nat) : (d.bump a n).tdJob = d.tdJob := rfl
@[simp] theorem Dev.bump_mx (d : Dev) (a n : Nat) : (d.bump a n).mx = d.mx := rfl
@[simp] theorem Dev.bump_emb (d : Dev) (a n : Nat) : (d.bump a n).emb = d.emb := rfl
@[simp] theorem Dev.bump_pipes (d : Dev) (a n : Nat) : (d.bump a n).pipes = d.pipes := rfl
@[simp] theorem Dev.bump_ichs (d : Dev) (a n : Nat) : (d.bump a n).ichs = d.ichs := rfl
@[simp] theorem Dev.bump_caches (d : Dev) (a n : Nat) : (d.bump a n).caches = d.caches := rfl
@[simp] theorem Dev.bump_eths (d : Dev) (a n : Nat) : (d.bump a n).eths = d.eths := rfl
@[simp] theorem Dev.bump_strs (d : Dev) (a n : Nat) : (d.bump a n).strs = d.strs := rfl
@[simp] theorem Dev.bump_grps (d : Dev) (a n : Nat) : (d.bump a n).grps = d.grps := rfl
@[simp] theorem Dev.bump_qps (d : Dev) (a n : Nat) : (d.bump a n).qps = d.qps := rfl
@[simp] theorem Dev.bump_pulses (d : Dev) (a n : Nat) : (d.bump a n).pulses = d.pulses := rfl
@[simp] theorem Dev.bump_alive (d : Dev) (a n : Nat) : (d.bump a n).alive = d.alive := rfl

@[simp] theorem Dev.emit_now (d : Dev) (x : Sent) : (d.emit x).now = d.now := rfl
@[simp] theorem Dev.emit_qcyc64 (d : Dev) (x : Sent) : (d.emit x).qcyc64 = d.qcyc64 := rfl
@[simp] theorem Dev.emit_free (d : Dev) (x : Sent) : (d.emit x).free = d.free := rfl
@[simp] theorem Dev.emit_regs (d : Dev) (x : Sent) : (d.emit x).regs = d.regs := rfl
@[simp] theorem Dev.emit_mem (d : Dev) (x : Sent) : (d.emit x).mem = d.mem := rfl
@[simp] theorem Dev.emit_lines (d : Dev) (x : Sent) : (d.emit x).lines = d.lines := rfl
@[simp] theorem Dev.emit_pht (d : Dev) (x : Sent) : (d.emit x).pht = d.pht := rfl
@[simp] theorem Dev.emit_emits (d : Dev) (x : Sent) : (d.emit x).emits = d.emits := rfl
@[simp] theorem Dev.emit_fb (d : Dev) (x : Sent) : (d.emit x).fb = d.fb := rfl
@[simp] theorem Dev.emit_att (d : Dev) (x : Sent) : (d.emit x).att = d.att := rfl
@[simp] theorem Dev.emit_plt (d : Dev) (x : Sent) : (d.emit x).plt = d.plt := rfl
@[simp] theorem Dev.emit_quads (d : Dev) (x : Sent) : (d.emit x).quads = d.quads := rfl
@[simp] theorem Dev.emit_seats (d : Dev) (x : Sent) : (d.emit x).seats = d.seats := rfl
@[simp] theorem Dev.emit_tutors (d : Dev) (x : Sent) : (d.emit x).tutors = d.tutors := rfl
@[simp] theorem Dev.emit_host (d : Dev) (x : Sent) : (d.emit x).host = d.host := rfl
@[simp] theorem Dev.emit_flt (d : Dev) (x : Sent) : (d.emit x).flt = d.flt := rfl
@[simp] theorem Dev.emit_fab (d : Dev) (x : Sent) : (d.emit x).fab = d.fab := rfl
@[simp] theorem Dev.emit_joins (d : Dev) (x : Sent) : (d.emit x).joins = d.joins := rfl
@[simp] theorem Dev.emit_seqs (d : Dev) (x : Sent) : (d.emit x).seqs = d.seqs := rfl
@[simp] theorem Dev.emit_tds (d : Dev) (x : Sent) : (d.emit x).tds = d.tds := rfl
@[simp] theorem Dev.emit_tdGen (d : Dev) (x : Sent) : (d.emit x).tdGen = d.tdGen := rfl
@[simp] theorem Dev.emit_tdJob (d : Dev) (x : Sent) : (d.emit x).tdJob = d.tdJob := rfl
@[simp] theorem Dev.emit_mx (d : Dev) (x : Sent) : (d.emit x).mx = d.mx := rfl
@[simp] theorem Dev.emit_emb (d : Dev) (x : Sent) : (d.emit x).emb = d.emb := rfl
@[simp] theorem Dev.emit_pipes (d : Dev) (x : Sent) : (d.emit x).pipes = d.pipes := rfl
@[simp] theorem Dev.emit_ichs (d : Dev) (x : Sent) : (d.emit x).ichs = d.ichs := rfl
@[simp] theorem Dev.emit_caches (d : Dev) (x : Sent) : (d.emit x).caches = d.caches := rfl
@[simp] theorem Dev.emit_eths (d : Dev) (x : Sent) : (d.emit x).eths = d.eths := rfl
@[simp] theorem Dev.emit_strs (d : Dev) (x : Sent) : (d.emit x).strs = d.strs := rfl
@[simp] theorem Dev.emit_grps (d : Dev) (x : Sent) : (d.emit x).grps = d.grps := rfl
@[simp] theorem Dev.emit_qps (d : Dev) (x : Sent) : (d.emit x).qps = d.qps := rfl
@[simp] theorem Dev.emit_pulses (d : Dev) (x : Sent) : (d.emit x).pulses = d.pulses := rfl
@[simp] theorem Dev.emit_alive (d : Dev) (x : Sent) : (d.emit x).alive = d.alive := rfl

@[simp] theorem Dev.setQuad_now (d : Dev) (q : Nat) (x : QuadSt) : (d.setQuad q x).now = d.now := rfl
@[simp] theorem Dev.setQuad_qcyc64 (d : Dev) (q : Nat) (x : QuadSt) : (d.setQuad q x).qcyc64 = d.qcyc64 := rfl
@[simp] theorem Dev.setQuad_free (d : Dev) (q : Nat) (x : QuadSt) : (d.setQuad q x).free = d.free := rfl
@[simp] theorem Dev.setQuad_sent (d : Dev) (q : Nat) (x : QuadSt) : (d.setQuad q x).sent = d.sent := rfl
@[simp] theorem Dev.setQuad_regs (d : Dev) (q : Nat) (x : QuadSt) : (d.setQuad q x).regs = d.regs := rfl
@[simp] theorem Dev.setQuad_mem (d : Dev) (q : Nat) (x : QuadSt) : (d.setQuad q x).mem = d.mem := rfl
@[simp] theorem Dev.setQuad_lines (d : Dev) (q : Nat) (x : QuadSt) : (d.setQuad q x).lines = d.lines := rfl
@[simp] theorem Dev.setQuad_pht (d : Dev) (q : Nat) (x : QuadSt) : (d.setQuad q x).pht = d.pht := rfl
@[simp] theorem Dev.setQuad_emits (d : Dev) (q : Nat) (x : QuadSt) : (d.setQuad q x).emits = d.emits := rfl
@[simp] theorem Dev.setQuad_fb (d : Dev) (q : Nat) (x : QuadSt) : (d.setQuad q x).fb = d.fb := rfl
@[simp] theorem Dev.setQuad_att (d : Dev) (q : Nat) (x : QuadSt) : (d.setQuad q x).att = d.att := rfl
@[simp] theorem Dev.setQuad_plt (d : Dev) (q : Nat) (x : QuadSt) : (d.setQuad q x).plt = d.plt := rfl
@[simp] theorem Dev.setQuad_seats (d : Dev) (q : Nat) (x : QuadSt) : (d.setQuad q x).seats = d.seats := rfl
@[simp] theorem Dev.setQuad_tutors (d : Dev) (q : Nat) (x : QuadSt) : (d.setQuad q x).tutors = d.tutors := rfl
@[simp] theorem Dev.setQuad_host (d : Dev) (q : Nat) (x : QuadSt) : (d.setQuad q x).host = d.host := rfl
@[simp] theorem Dev.setQuad_flt (d : Dev) (q : Nat) (x : QuadSt) : (d.setQuad q x).flt = d.flt := rfl
@[simp] theorem Dev.setQuad_fab (d : Dev) (q : Nat) (x : QuadSt) : (d.setQuad q x).fab = d.fab := rfl
@[simp] theorem Dev.setQuad_joins (d : Dev) (q : Nat) (x : QuadSt) : (d.setQuad q x).joins = d.joins := rfl
@[simp] theorem Dev.setQuad_seqs (d : Dev) (q : Nat) (x : QuadSt) : (d.setQuad q x).seqs = d.seqs := rfl
@[simp] theorem Dev.setQuad_tds (d : Dev) (q : Nat) (x : QuadSt) : (d.setQuad q x).tds = d.tds := rfl
@[simp] theorem Dev.setQuad_tdGen (d : Dev) (q : Nat) (x : QuadSt) : (d.setQuad q x).tdGen = d.tdGen := rfl
@[simp] theorem Dev.setQuad_tdJob (d : Dev) (q : Nat) (x : QuadSt) : (d.setQuad q x).tdJob = d.tdJob := rfl
@[simp] theorem Dev.setQuad_mx (d : Dev) (q : Nat) (x : QuadSt) : (d.setQuad q x).mx = d.mx := rfl
@[simp] theorem Dev.setQuad_emb (d : Dev) (q : Nat) (x : QuadSt) : (d.setQuad q x).emb = d.emb := rfl
@[simp] theorem Dev.setQuad_pipes (d : Dev) (q : Nat) (x : QuadSt) : (d.setQuad q x).pipes = d.pipes := rfl
@[simp] theorem Dev.setQuad_ichs (d : Dev) (q : Nat) (x : QuadSt) : (d.setQuad q x).ichs = d.ichs := rfl
@[simp] theorem Dev.setQuad_caches (d : Dev) (q : Nat) (x : QuadSt) : (d.setQuad q x).caches = d.caches := rfl
@[simp] theorem Dev.setQuad_eths (d : Dev) (q : Nat) (x : QuadSt) : (d.setQuad q x).eths = d.eths := rfl
@[simp] theorem Dev.setQuad_strs (d : Dev) (q : Nat) (x : QuadSt) : (d.setQuad q x).strs = d.strs := rfl
@[simp] theorem Dev.setQuad_grps (d : Dev) (q : Nat) (x : QuadSt) : (d.setQuad q x).grps = d.grps := rfl
@[simp] theorem Dev.setQuad_qps (d : Dev) (q : Nat) (x : QuadSt) : (d.setQuad q x).qps = d.qps := rfl
@[simp] theorem Dev.setQuad_pulses (d : Dev) (q : Nat) (x : QuadSt) : (d.setQuad q x).pulses = d.pulses := rfl
@[simp] theorem Dev.setQuad_alive (d : Dev) (q : Nat) (x : QuadSt) : (d.setQuad q x).alive = d.alive := rfl

@[simp] theorem Dev.setSeat_now (d : Dev) (n : Nat) (x : SeatSt) : (d.setSeat n x).now = d.now := rfl
@[simp] theorem Dev.setSeat_qcyc64 (d : Dev) (n : Nat) (x : SeatSt) : (d.setSeat n x).qcyc64 = d.qcyc64 := rfl
@[simp] theorem Dev.setSeat_free (d : Dev) (n : Nat) (x : SeatSt) : (d.setSeat n x).free = d.free := rfl
@[simp] theorem Dev.setSeat_sent (d : Dev) (n : Nat) (x : SeatSt) : (d.setSeat n x).sent = d.sent := rfl
@[simp] theorem Dev.setSeat_regs (d : Dev) (n : Nat) (x : SeatSt) : (d.setSeat n x).regs = d.regs := rfl
@[simp] theorem Dev.setSeat_mem (d : Dev) (n : Nat) (x : SeatSt) : (d.setSeat n x).mem = d.mem := rfl
@[simp] theorem Dev.setSeat_lines (d : Dev) (n : Nat) (x : SeatSt) : (d.setSeat n x).lines = d.lines := rfl
@[simp] theorem Dev.setSeat_pht (d : Dev) (n : Nat) (x : SeatSt) : (d.setSeat n x).pht = d.pht := rfl
@[simp] theorem Dev.setSeat_emits (d : Dev) (n : Nat) (x : SeatSt) : (d.setSeat n x).emits = d.emits := rfl
@[simp] theorem Dev.setSeat_fb (d : Dev) (n : Nat) (x : SeatSt) : (d.setSeat n x).fb = d.fb := rfl
@[simp] theorem Dev.setSeat_att (d : Dev) (n : Nat) (x : SeatSt) : (d.setSeat n x).att = d.att := rfl
@[simp] theorem Dev.setSeat_plt (d : Dev) (n : Nat) (x : SeatSt) : (d.setSeat n x).plt = d.plt := rfl
@[simp] theorem Dev.setSeat_quads (d : Dev) (n : Nat) (x : SeatSt) : (d.setSeat n x).quads = d.quads := rfl
@[simp] theorem Dev.setSeat_tutors (d : Dev) (n : Nat) (x : SeatSt) : (d.setSeat n x).tutors = d.tutors := rfl
@[simp] theorem Dev.setSeat_host (d : Dev) (n : Nat) (x : SeatSt) : (d.setSeat n x).host = d.host := rfl
@[simp] theorem Dev.setSeat_flt (d : Dev) (n : Nat) (x : SeatSt) : (d.setSeat n x).flt = d.flt := rfl
@[simp] theorem Dev.setSeat_fab (d : Dev) (n : Nat) (x : SeatSt) : (d.setSeat n x).fab = d.fab := rfl
@[simp] theorem Dev.setSeat_joins (d : Dev) (n : Nat) (x : SeatSt) : (d.setSeat n x).joins = d.joins := rfl
@[simp] theorem Dev.setSeat_seqs (d : Dev) (n : Nat) (x : SeatSt) : (d.setSeat n x).seqs = d.seqs := rfl
@[simp] theorem Dev.setSeat_tds (d : Dev) (n : Nat) (x : SeatSt) : (d.setSeat n x).tds = d.tds := rfl
@[simp] theorem Dev.setSeat_tdGen (d : Dev) (n : Nat) (x : SeatSt) : (d.setSeat n x).tdGen = d.tdGen := rfl
@[simp] theorem Dev.setSeat_tdJob (d : Dev) (n : Nat) (x : SeatSt) : (d.setSeat n x).tdJob = d.tdJob := rfl
@[simp] theorem Dev.setSeat_mx (d : Dev) (n : Nat) (x : SeatSt) : (d.setSeat n x).mx = d.mx := rfl
@[simp] theorem Dev.setSeat_emb (d : Dev) (n : Nat) (x : SeatSt) : (d.setSeat n x).emb = d.emb := rfl
@[simp] theorem Dev.setSeat_pipes (d : Dev) (n : Nat) (x : SeatSt) : (d.setSeat n x).pipes = d.pipes := rfl
@[simp] theorem Dev.setSeat_ichs (d : Dev) (n : Nat) (x : SeatSt) : (d.setSeat n x).ichs = d.ichs := rfl
@[simp] theorem Dev.setSeat_caches (d : Dev) (n : Nat) (x : SeatSt) : (d.setSeat n x).caches = d.caches := rfl
@[simp] theorem Dev.setSeat_eths (d : Dev) (n : Nat) (x : SeatSt) : (d.setSeat n x).eths = d.eths := rfl
@[simp] theorem Dev.setSeat_strs (d : Dev) (n : Nat) (x : SeatSt) : (d.setSeat n x).strs = d.strs := rfl
@[simp] theorem Dev.setSeat_grps (d : Dev) (n : Nat) (x : SeatSt) : (d.setSeat n x).grps = d.grps := rfl
@[simp] theorem Dev.setSeat_qps (d : Dev) (n : Nat) (x : SeatSt) : (d.setSeat n x).qps = d.qps := rfl
@[simp] theorem Dev.setSeat_pulses (d : Dev) (n : Nat) (x : SeatSt) : (d.setSeat n x).pulses = d.pulses := rfl
@[simp] theorem Dev.setSeat_alive (d : Dev) (n : Nat) (x : SeatSt) : (d.setSeat n x).alive = d.alive := rfl

@[simp] theorem Dev.setTutor_now (d : Dev) (t : Nat) (x : TutorSt) : (d.setTutor t x).now = d.now := rfl
@[simp] theorem Dev.setTutor_qcyc64 (d : Dev) (t : Nat) (x : TutorSt) : (d.setTutor t x).qcyc64 = d.qcyc64 := rfl
@[simp] theorem Dev.setTutor_free (d : Dev) (t : Nat) (x : TutorSt) : (d.setTutor t x).free = d.free := rfl
@[simp] theorem Dev.setTutor_sent (d : Dev) (t : Nat) (x : TutorSt) : (d.setTutor t x).sent = d.sent := rfl
@[simp] theorem Dev.setTutor_regs (d : Dev) (t : Nat) (x : TutorSt) : (d.setTutor t x).regs = d.regs := rfl
@[simp] theorem Dev.setTutor_mem (d : Dev) (t : Nat) (x : TutorSt) : (d.setTutor t x).mem = d.mem := rfl
@[simp] theorem Dev.setTutor_lines (d : Dev) (t : Nat) (x : TutorSt) : (d.setTutor t x).lines = d.lines := rfl
@[simp] theorem Dev.setTutor_pht (d : Dev) (t : Nat) (x : TutorSt) : (d.setTutor t x).pht = d.pht := rfl
@[simp] theorem Dev.setTutor_emits (d : Dev) (t : Nat) (x : TutorSt) : (d.setTutor t x).emits = d.emits := rfl
@[simp] theorem Dev.setTutor_fb (d : Dev) (t : Nat) (x : TutorSt) : (d.setTutor t x).fb = d.fb := rfl
@[simp] theorem Dev.setTutor_att (d : Dev) (t : Nat) (x : TutorSt) : (d.setTutor t x).att = d.att := rfl
@[simp] theorem Dev.setTutor_plt (d : Dev) (t : Nat) (x : TutorSt) : (d.setTutor t x).plt = d.plt := rfl
@[simp] theorem Dev.setTutor_quads (d : Dev) (t : Nat) (x : TutorSt) : (d.setTutor t x).quads = d.quads := rfl
@[simp] theorem Dev.setTutor_seats (d : Dev) (t : Nat) (x : TutorSt) : (d.setTutor t x).seats = d.seats := rfl
@[simp] theorem Dev.setTutor_host (d : Dev) (t : Nat) (x : TutorSt) : (d.setTutor t x).host = d.host := rfl
@[simp] theorem Dev.setTutor_flt (d : Dev) (t : Nat) (x : TutorSt) : (d.setTutor t x).flt = d.flt := rfl
@[simp] theorem Dev.setTutor_fab (d : Dev) (t : Nat) (x : TutorSt) : (d.setTutor t x).fab = d.fab := rfl
@[simp] theorem Dev.setTutor_joins (d : Dev) (t : Nat) (x : TutorSt) : (d.setTutor t x).joins = d.joins := rfl
@[simp] theorem Dev.setTutor_seqs (d : Dev) (t : Nat) (x : TutorSt) : (d.setTutor t x).seqs = d.seqs := rfl
@[simp] theorem Dev.setTutor_tds (d : Dev) (t : Nat) (x : TutorSt) : (d.setTutor t x).tds = d.tds := rfl
@[simp] theorem Dev.setTutor_tdGen (d : Dev) (t : Nat) (x : TutorSt) : (d.setTutor t x).tdGen = d.tdGen := rfl
@[simp] theorem Dev.setTutor_tdJob (d : Dev) (t : Nat) (x : TutorSt) : (d.setTutor t x).tdJob = d.tdJob := rfl
@[simp] theorem Dev.setTutor_mx (d : Dev) (t : Nat) (x : TutorSt) : (d.setTutor t x).mx = d.mx := rfl
@[simp] theorem Dev.setTutor_emb (d : Dev) (t : Nat) (x : TutorSt) : (d.setTutor t x).emb = d.emb := rfl
@[simp] theorem Dev.setTutor_pipes (d : Dev) (t : Nat) (x : TutorSt) : (d.setTutor t x).pipes = d.pipes := rfl
@[simp] theorem Dev.setTutor_ichs (d : Dev) (t : Nat) (x : TutorSt) : (d.setTutor t x).ichs = d.ichs := rfl
@[simp] theorem Dev.setTutor_caches (d : Dev) (t : Nat) (x : TutorSt) : (d.setTutor t x).caches = d.caches := rfl
@[simp] theorem Dev.setTutor_eths (d : Dev) (t : Nat) (x : TutorSt) : (d.setTutor t x).eths = d.eths := rfl
@[simp] theorem Dev.setTutor_strs (d : Dev) (t : Nat) (x : TutorSt) : (d.setTutor t x).strs = d.strs := rfl
@[simp] theorem Dev.setTutor_grps (d : Dev) (t : Nat) (x : TutorSt) : (d.setTutor t x).grps = d.grps := rfl
@[simp] theorem Dev.setTutor_qps (d : Dev) (t : Nat) (x : TutorSt) : (d.setTutor t x).qps = d.qps := rfl
@[simp] theorem Dev.setTutor_pulses (d : Dev) (t : Nat) (x : TutorSt) : (d.setTutor t x).pulses = d.pulses := rfl
@[simp] theorem Dev.setTutor_alive (d : Dev) (t : Nat) (x : TutorSt) : (d.setTutor t x).alive = d.alive := rfl

@[simp] theorem Dev.setRing_now (d : Dev) (n : Nat) (x : RingSt) : (d.setRing n x).now = d.now := rfl
@[simp] theorem Dev.setRing_qcyc64 (d : Dev) (n : Nat) (x : RingSt) : (d.setRing n x).qcyc64 = d.qcyc64 := rfl
@[simp] theorem Dev.setRing_free (d : Dev) (n : Nat) (x : RingSt) : (d.setRing n x).free = d.free := rfl
@[simp] theorem Dev.setRing_sent (d : Dev) (n : Nat) (x : RingSt) : (d.setRing n x).sent = d.sent := rfl
@[simp] theorem Dev.setRing_regs (d : Dev) (n : Nat) (x : RingSt) : (d.setRing n x).regs = d.regs := rfl
@[simp] theorem Dev.setRing_mem (d : Dev) (n : Nat) (x : RingSt) : (d.setRing n x).mem = d.mem := rfl
@[simp] theorem Dev.setRing_lines (d : Dev) (n : Nat) (x : RingSt) : (d.setRing n x).lines = d.lines := rfl
@[simp] theorem Dev.setRing_pht (d : Dev) (n : Nat) (x : RingSt) : (d.setRing n x).pht = d.pht := rfl
@[simp] theorem Dev.setRing_emits (d : Dev) (n : Nat) (x : RingSt) : (d.setRing n x).emits = d.emits := rfl
@[simp] theorem Dev.setRing_fb (d : Dev) (n : Nat) (x : RingSt) : (d.setRing n x).fb = d.fb := rfl
@[simp] theorem Dev.setRing_att (d : Dev) (n : Nat) (x : RingSt) : (d.setRing n x).att = d.att := rfl
@[simp] theorem Dev.setRing_plt (d : Dev) (n : Nat) (x : RingSt) : (d.setRing n x).plt = d.plt := rfl
@[simp] theorem Dev.setRing_quads (d : Dev) (n : Nat) (x : RingSt) : (d.setRing n x).quads = d.quads := rfl
@[simp] theorem Dev.setRing_seats (d : Dev) (n : Nat) (x : RingSt) : (d.setRing n x).seats = d.seats := rfl
@[simp] theorem Dev.setRing_tutors (d : Dev) (n : Nat) (x : RingSt) : (d.setRing n x).tutors = d.tutors := rfl
@[simp] theorem Dev.setRing_flt (d : Dev) (n : Nat) (x : RingSt) : (d.setRing n x).flt = d.flt := rfl
@[simp] theorem Dev.setRing_fab (d : Dev) (n : Nat) (x : RingSt) : (d.setRing n x).fab = d.fab := rfl
@[simp] theorem Dev.setRing_joins (d : Dev) (n : Nat) (x : RingSt) : (d.setRing n x).joins = d.joins := rfl
@[simp] theorem Dev.setRing_seqs (d : Dev) (n : Nat) (x : RingSt) : (d.setRing n x).seqs = d.seqs := rfl
@[simp] theorem Dev.setRing_tds (d : Dev) (n : Nat) (x : RingSt) : (d.setRing n x).tds = d.tds := rfl
@[simp] theorem Dev.setRing_tdGen (d : Dev) (n : Nat) (x : RingSt) : (d.setRing n x).tdGen = d.tdGen := rfl
@[simp] theorem Dev.setRing_tdJob (d : Dev) (n : Nat) (x : RingSt) : (d.setRing n x).tdJob = d.tdJob := rfl
@[simp] theorem Dev.setRing_mx (d : Dev) (n : Nat) (x : RingSt) : (d.setRing n x).mx = d.mx := rfl
@[simp] theorem Dev.setRing_emb (d : Dev) (n : Nat) (x : RingSt) : (d.setRing n x).emb = d.emb := rfl
@[simp] theorem Dev.setRing_pipes (d : Dev) (n : Nat) (x : RingSt) : (d.setRing n x).pipes = d.pipes := rfl
@[simp] theorem Dev.setRing_ichs (d : Dev) (n : Nat) (x : RingSt) : (d.setRing n x).ichs = d.ichs := rfl
@[simp] theorem Dev.setRing_caches (d : Dev) (n : Nat) (x : RingSt) : (d.setRing n x).caches = d.caches := rfl
@[simp] theorem Dev.setRing_eths (d : Dev) (n : Nat) (x : RingSt) : (d.setRing n x).eths = d.eths := rfl
@[simp] theorem Dev.setRing_strs (d : Dev) (n : Nat) (x : RingSt) : (d.setRing n x).strs = d.strs := rfl
@[simp] theorem Dev.setRing_grps (d : Dev) (n : Nat) (x : RingSt) : (d.setRing n x).grps = d.grps := rfl
@[simp] theorem Dev.setRing_qps (d : Dev) (n : Nat) (x : RingSt) : (d.setRing n x).qps = d.qps := rfl
@[simp] theorem Dev.setRing_pulses (d : Dev) (n : Nat) (x : RingSt) : (d.setRing n x).pulses = d.pulses := rfl
@[simp] theorem Dev.setRing_alive (d : Dev) (n : Nat) (x : RingSt) : (d.setRing n x).alive = d.alive := rfl

@[simp] theorem Dev.setPort_now (d : Dev) (p : Nat) (x : PortSt) : (d.setPort p x).now = d.now := rfl
@[simp] theorem Dev.setPort_qcyc64 (d : Dev) (p : Nat) (x : PortSt) : (d.setPort p x).qcyc64 = d.qcyc64 := rfl
@[simp] theorem Dev.setPort_free (d : Dev) (p : Nat) (x : PortSt) : (d.setPort p x).free = d.free := rfl
@[simp] theorem Dev.setPort_sent (d : Dev) (p : Nat) (x : PortSt) : (d.setPort p x).sent = d.sent := rfl
@[simp] theorem Dev.setPort_regs (d : Dev) (p : Nat) (x : PortSt) : (d.setPort p x).regs = d.regs := rfl
@[simp] theorem Dev.setPort_mem (d : Dev) (p : Nat) (x : PortSt) : (d.setPort p x).mem = d.mem := rfl
@[simp] theorem Dev.setPort_lines (d : Dev) (p : Nat) (x : PortSt) : (d.setPort p x).lines = d.lines := rfl
@[simp] theorem Dev.setPort_pht (d : Dev) (p : Nat) (x : PortSt) : (d.setPort p x).pht = d.pht := rfl
@[simp] theorem Dev.setPort_emits (d : Dev) (p : Nat) (x : PortSt) : (d.setPort p x).emits = d.emits := rfl
@[simp] theorem Dev.setPort_fb (d : Dev) (p : Nat) (x : PortSt) : (d.setPort p x).fb = d.fb := rfl
@[simp] theorem Dev.setPort_att (d : Dev) (p : Nat) (x : PortSt) : (d.setPort p x).att = d.att := rfl
@[simp] theorem Dev.setPort_plt (d : Dev) (p : Nat) (x : PortSt) : (d.setPort p x).plt = d.plt := rfl
@[simp] theorem Dev.setPort_quads (d : Dev) (p : Nat) (x : PortSt) : (d.setPort p x).quads = d.quads := rfl
@[simp] theorem Dev.setPort_seats (d : Dev) (p : Nat) (x : PortSt) : (d.setPort p x).seats = d.seats := rfl
@[simp] theorem Dev.setPort_tutors (d : Dev) (p : Nat) (x : PortSt) : (d.setPort p x).tutors = d.tutors := rfl
@[simp] theorem Dev.setPort_host (d : Dev) (p : Nat) (x : PortSt) : (d.setPort p x).host = d.host := rfl
@[simp] theorem Dev.setPort_flt (d : Dev) (p : Nat) (x : PortSt) : (d.setPort p x).flt = d.flt := rfl
@[simp] theorem Dev.setPort_joins (d : Dev) (p : Nat) (x : PortSt) : (d.setPort p x).joins = d.joins := rfl
@[simp] theorem Dev.setPort_seqs (d : Dev) (p : Nat) (x : PortSt) : (d.setPort p x).seqs = d.seqs := rfl
@[simp] theorem Dev.setPort_tds (d : Dev) (p : Nat) (x : PortSt) : (d.setPort p x).tds = d.tds := rfl
@[simp] theorem Dev.setPort_tdGen (d : Dev) (p : Nat) (x : PortSt) : (d.setPort p x).tdGen = d.tdGen := rfl
@[simp] theorem Dev.setPort_tdJob (d : Dev) (p : Nat) (x : PortSt) : (d.setPort p x).tdJob = d.tdJob := rfl
@[simp] theorem Dev.setPort_mx (d : Dev) (p : Nat) (x : PortSt) : (d.setPort p x).mx = d.mx := rfl
@[simp] theorem Dev.setPort_emb (d : Dev) (p : Nat) (x : PortSt) : (d.setPort p x).emb = d.emb := rfl
@[simp] theorem Dev.setPort_pipes (d : Dev) (p : Nat) (x : PortSt) : (d.setPort p x).pipes = d.pipes := rfl
@[simp] theorem Dev.setPort_ichs (d : Dev) (p : Nat) (x : PortSt) : (d.setPort p x).ichs = d.ichs := rfl
@[simp] theorem Dev.setPort_caches (d : Dev) (p : Nat) (x : PortSt) : (d.setPort p x).caches = d.caches := rfl
@[simp] theorem Dev.setPort_eths (d : Dev) (p : Nat) (x : PortSt) : (d.setPort p x).eths = d.eths := rfl
@[simp] theorem Dev.setPort_strs (d : Dev) (p : Nat) (x : PortSt) : (d.setPort p x).strs = d.strs := rfl
@[simp] theorem Dev.setPort_grps (d : Dev) (p : Nat) (x : PortSt) : (d.setPort p x).grps = d.grps := rfl
@[simp] theorem Dev.setPort_qps (d : Dev) (p : Nat) (x : PortSt) : (d.setPort p x).qps = d.qps := rfl
@[simp] theorem Dev.setPort_pulses (d : Dev) (p : Nat) (x : PortSt) : (d.setPort p x).pulses = d.pulses := rfl
@[simp] theorem Dev.setPort_alive (d : Dev) (p : Nat) (x : PortSt) : (d.setPort p x).alive = d.alive := rfl

@[simp] theorem Dev.setEth_now (d : Dev) (n : Nat) (x : EthSt) : (d.setEth n x).now = d.now := rfl
@[simp] theorem Dev.setEth_qcyc64 (d : Dev) (n : Nat) (x : EthSt) : (d.setEth n x).qcyc64 = d.qcyc64 := rfl
@[simp] theorem Dev.setEth_free (d : Dev) (n : Nat) (x : EthSt) : (d.setEth n x).free = d.free := rfl
@[simp] theorem Dev.setEth_sent (d : Dev) (n : Nat) (x : EthSt) : (d.setEth n x).sent = d.sent := rfl
@[simp] theorem Dev.setEth_regs (d : Dev) (n : Nat) (x : EthSt) : (d.setEth n x).regs = d.regs := rfl
@[simp] theorem Dev.setEth_mem (d : Dev) (n : Nat) (x : EthSt) : (d.setEth n x).mem = d.mem := rfl
@[simp] theorem Dev.setEth_lines (d : Dev) (n : Nat) (x : EthSt) : (d.setEth n x).lines = d.lines := rfl
@[simp] theorem Dev.setEth_pht (d : Dev) (n : Nat) (x : EthSt) : (d.setEth n x).pht = d.pht := rfl
@[simp] theorem Dev.setEth_emits (d : Dev) (n : Nat) (x : EthSt) : (d.setEth n x).emits = d.emits := rfl
@[simp] theorem Dev.setEth_fb (d : Dev) (n : Nat) (x : EthSt) : (d.setEth n x).fb = d.fb := rfl
@[simp] theorem Dev.setEth_att (d : Dev) (n : Nat) (x : EthSt) : (d.setEth n x).att = d.att := rfl
@[simp] theorem Dev.setEth_plt (d : Dev) (n : Nat) (x : EthSt) : (d.setEth n x).plt = d.plt := rfl
@[simp] theorem Dev.setEth_quads (d : Dev) (n : Nat) (x : EthSt) : (d.setEth n x).quads = d.quads := rfl
@[simp] theorem Dev.setEth_seats (d : Dev) (n : Nat) (x : EthSt) : (d.setEth n x).seats = d.seats := rfl
@[simp] theorem Dev.setEth_tutors (d : Dev) (n : Nat) (x : EthSt) : (d.setEth n x).tutors = d.tutors := rfl
@[simp] theorem Dev.setEth_host (d : Dev) (n : Nat) (x : EthSt) : (d.setEth n x).host = d.host := rfl
@[simp] theorem Dev.setEth_flt (d : Dev) (n : Nat) (x : EthSt) : (d.setEth n x).flt = d.flt := rfl
@[simp] theorem Dev.setEth_fab (d : Dev) (n : Nat) (x : EthSt) : (d.setEth n x).fab = d.fab := rfl
@[simp] theorem Dev.setEth_joins (d : Dev) (n : Nat) (x : EthSt) : (d.setEth n x).joins = d.joins := rfl
@[simp] theorem Dev.setEth_seqs (d : Dev) (n : Nat) (x : EthSt) : (d.setEth n x).seqs = d.seqs := rfl
@[simp] theorem Dev.setEth_tds (d : Dev) (n : Nat) (x : EthSt) : (d.setEth n x).tds = d.tds := rfl
@[simp] theorem Dev.setEth_tdGen (d : Dev) (n : Nat) (x : EthSt) : (d.setEth n x).tdGen = d.tdGen := rfl
@[simp] theorem Dev.setEth_tdJob (d : Dev) (n : Nat) (x : EthSt) : (d.setEth n x).tdJob = d.tdJob := rfl
@[simp] theorem Dev.setEth_mx (d : Dev) (n : Nat) (x : EthSt) : (d.setEth n x).mx = d.mx := rfl
@[simp] theorem Dev.setEth_emb (d : Dev) (n : Nat) (x : EthSt) : (d.setEth n x).emb = d.emb := rfl
@[simp] theorem Dev.setEth_pipes (d : Dev) (n : Nat) (x : EthSt) : (d.setEth n x).pipes = d.pipes := rfl
@[simp] theorem Dev.setEth_ichs (d : Dev) (n : Nat) (x : EthSt) : (d.setEth n x).ichs = d.ichs := rfl
@[simp] theorem Dev.setEth_caches (d : Dev) (n : Nat) (x : EthSt) : (d.setEth n x).caches = d.caches := rfl
@[simp] theorem Dev.setEth_strs (d : Dev) (n : Nat) (x : EthSt) : (d.setEth n x).strs = d.strs := rfl
@[simp] theorem Dev.setEth_grps (d : Dev) (n : Nat) (x : EthSt) : (d.setEth n x).grps = d.grps := rfl
@[simp] theorem Dev.setEth_qps (d : Dev) (n : Nat) (x : EthSt) : (d.setEth n x).qps = d.qps := rfl
@[simp] theorem Dev.setEth_pulses (d : Dev) (n : Nat) (x : EthSt) : (d.setEth n x).pulses = d.pulses := rfl
@[simp] theorem Dev.setEth_alive (d : Dev) (n : Nat) (x : EthSt) : (d.setEth n x).alive = d.alive := rfl

@[simp] theorem State.setDev_pending (s : State) (f : Dev → Dev) : (s.setDev f).pending = s.pending := rfl
@[simp] theorem State.setDev_care (s : State) (f : Dev → Dev) : (s.setDev f).care = s.care := rfl
@[simp] theorem State.setRun_dev (s : State) (f : CareRun → CareRun) : (s.setRun f).dev = s.dev := rfl
@[simp] theorem State.setKept_dev (s : State) (f : Kept → Kept) : (s.setKept f).dev = s.dev := rfl
@[simp] theorem State.setStageOf_dev (s : State) (n : Nat) : (s.setStageOf n).dev = s.dev := rfl
@[simp] theorem State.setDev_dev (s : State) (f : Dev → Dev) : (s.setDev f).dev = f s.dev := rfl
@[simp] theorem State.setRun_run (s : State) (f : CareRun → CareRun) : (s.setRun f).care.run = f s.care.run := rfl
@[simp] theorem State.setRun_kept (s : State) (f : CareRun → CareRun) : (s.setRun f).care.kept = s.care.kept := rfl
@[simp] theorem State.setRun_power (s : State) (f : CareRun → CareRun) : (s.setRun f).care.power = s.care.power := rfl
@[simp] theorem State.setRun_resetLow (s : State) (f : CareRun → CareRun) : (s.setRun f).care.resetLow = s.care.resetLow := rfl
@[simp] theorem State.setRun_perstLow (s : State) (f : CareRun → CareRun) : (s.setRun f).care.perstLow = s.care.perstLow := rfl
@[simp] theorem State.setKept_run (s : State) (f : Kept → Kept) : (s.setKept f).care.run = s.care.run := rfl
@[simp] theorem State.setKept_kept (s : State) (f : Kept → Kept) : (s.setKept f).care.kept = f s.care.kept := rfl
@[simp] theorem State.setStageOf_run (s : State) (n : Nat) :
    (s.setStageOf n).care.run = { s.care.run with stage := n } := rfl

end Sys2Proof.Machine
end

