-- ==== Sys2Proof/Laws/Tables.lean ====
section
/-! SUPPORT. Tables and the register file: what a read finds after a write, by number and by name. -/
namespace Sys2Proof.Machine

variable {α : Type}

@[simp] theorem tfind_tput_same (t : Tbl α) (n : Nat) (x : α) : tfind (tput t n x) n = some x := by
  induction t with
  | nil => simp [tput, tfind]
  | cons e t ih =>
    obtain ⟨k, v⟩ := e
    simp only [tput]
    split
    · simp [tfind]
    · split
      · simp [tfind]
      · next h => simp [tfind, Ne.symm h, ih]

theorem tfind_tput_ne (t : Tbl α) {n m : Nat} (x : α) (h : m ≠ n) : tfind (tput t n x) m = tfind t m := by
  induction t with
  | nil => simp [tput, tfind, Ne.symm h]
  | cons e t ih =>
    obtain ⟨k, v⟩ := e
    simp only [tput]
    split
    · simp [tfind, Ne.symm h]
    · split
      · next h' => subst h'; simp [tfind, Ne.symm h]
      · simp [tfind, ih]

theorem tfind_tput (t : Tbl α) (n m : Nat) (x : α) : tfind (tput t n x) m = if m = n then some x else tfind t m := by
  split
  · next h => subst h; simp
  · next h => exact tfind_tput_ne t x h

@[simp] theorem tput_tput (t : Tbl α) (n : Nat) (x y : α) : tput (tput t n x) n y = tput t n y := by
  induction t with
  | nil => simp [tput]
  | cons e t ih =>
    obtain ⟨k, v⟩ := e
    simp only [tput]
    split
    · simp [tput]
    · split
      · simp [tput]
      · next h h' => simp [tput, h, h', ih]

@[simp] theorem tget_tput_same (d : α) (t : Tbl α) (n : Nat) (x : α) : tget d (tput t n x) n = x := by simp [tget]

theorem tget_tput_ne (d : α) (t : Tbl α) {n m : Nat} (x : α) (h : m ≠ n) : tget d (tput t n x) m = tget d t m := by
  simp [tget, tfind_tput_ne t x h]

@[simp] theorem tfind_tdel_same (t : Tbl α) (n : Nat) : tfind (tdel t n) n = none := by
  induction t with
  | nil => rfl
  | cons e t ih =>
    obtain ⟨k, v⟩ := e
    simp only [tdel]
    split
    · exact ih
    · next h => simp [tfind, h, ih]

theorem tfind_tdel_ne (t : Tbl α) {n m : Nat} (h : m ≠ n) : tfind (tdel t n) m = tfind t m := by
  induction t with
  | nil => rfl
  | cons e t ih =>
    obtain ⟨k, v⟩ := e
    simp only [tdel]
    split
    · next h' => subst h'; simp [tfind, Ne.symm h, ih]
    · simp [tfind, ih]

/-! Registers -/

@[simp] theorem Dev.rr_wr_same (d : Dev) (a : Nat) (w : Word) : (d.wr a w).rr a = w := by simp [Dev.rr, Dev.wr]

theorem Dev.rr_wr_ne (d : Dev) {a b : Nat} (w : Word) (h : b ≠ a) : (d.wr a w).rr b = d.rr b := by
  simp [Dev.rr, Dev.wr, tfind_tput_ne _ _ h]

theorem Dev.rr_wr (d : Dev) (a b : Nat) (w : Word) : (d.wr a w).rr b = if b = a then w else d.rr b := by
  split
  · next h => subst h; simp
  · next h => exact d.rr_wr_ne w h

theorem Dev.rr_wn_ne (d : Dev) {a b : Nat} (n : Nat) (h : b ≠ a) : (d.wn a n).rr b = d.rr b := d.rr_wr_ne _ h
theorem Dev.rr_wbit_ne (d : Dev) {a b : Nat} (i : Nat) (v : Bool) (h : b ≠ a) : (d.wbit a i v).rr b = d.rr b := d.rr_wr_ne _ h
theorem Dev.rr_wf_ne (d : Dev) {a b : Nat} (hi lo v : Nat) (h : b ≠ a) : (d.wf a hi lo v).rr b = d.rr b := d.rr_wr_ne _ h
theorem Dev.rr_bump_ne (d : Dev) {a b : Nat} (n : Nat) (h : b ≠ a) : (d.bump a n).rr b = d.rr b := d.rr_wr_ne _ h

@[simp] theorem Dev.rn_wn_same (d : Dev) (a n : Nat) : (d.wn a n).rn a = n % 2 ^ 32 := by simp [Dev.rn, Dev.wn]

theorem Dev.rbit_wbit_same (d : Dev) (a i : Nat) (v : Bool) (h : i < 32) : (d.wbit a i v).rbit a i = v := by
  cases v <;> simp [Dev.rbit, Dev.wbit, h]

/-- Zeroing a run of n registers: each reads zero, every other register reads as before. -/
theorem Dev.rr_zeroRegs (n : Nat) : ∀ (d : Dev) (a b : Nat),
    (d.zeroRegs a n).rr b = if ∃ k, k < n ∧ b = a + 4 * k then 0 else d.rr b := by
  induction n with
  | zero => intro d a b; simp [Dev.zeroRegs]
  | succ n ih =>
    intro d a b
    rw [Dev.zeroRegs, ih]
    by_cases h : ∃ k, k < n ∧ b = a + 4 + 4 * k
    · rw [if_pos h, if_pos]
      obtain ⟨k, hk, hb⟩ := h
      exact ⟨k + 1, by omega, by omega⟩
    · rw [if_neg h]
      by_cases hb : b = a
      · subst hb
        rw [if_pos ⟨0, by omega, by omega⟩]
        simp [Dev.wn]
      · rw [if_neg, d.rr_wn_ne 0 hb]
        rintro ⟨k, hk, rfl⟩
        cases k with
        | zero => exact hb (by omega)
        | succ k => exact h ⟨k, by omega, by omega⟩

/-! Units by number -/

@[simp] theorem Dev.tutor_setTutor (d : Dev) (t : Nat) (x : TutorSt) : (d.setTutor t x).tutor t = x := by
  simp [Dev.tutor, Dev.setTutor]
theorem Dev.tutor_setTutor_ne (d : Dev) {t u : Nat} (x : TutorSt) (h : u ≠ t) : (d.setTutor t x).tutor u = d.tutor u := by
  simp [Dev.tutor, Dev.setTutor, tget_tput_ne _ _ _ h]
@[simp] theorem Dev.setTutor_setTutor (d : Dev) (t : Nat) (x y : TutorSt) : (d.setTutor t x).setTutor t y = d.setTutor t y := by
  simp [Dev.setTutor]
@[simp] theorem Dev.quad_setQuad (d : Dev) (q : Nat) (x : QuadSt) : (d.setQuad q x).quad q = x := by
  simp [Dev.quad, Dev.setQuad]
theorem Dev.quad_setQuad_ne (d : Dev) {q r : Nat} (x : QuadSt) (h : r ≠ q) : (d.setQuad q x).quad r = d.quad r := by
  simp [Dev.quad, Dev.setQuad, tget_tput_ne _ _ _ h]
@[simp] theorem Dev.setQuad_setQuad (d : Dev) (q : Nat) (x y : QuadSt) : (d.setQuad q x).setQuad q y = d.setQuad q y := by
  simp [Dev.setQuad]
@[simp] theorem Dev.seat_setSeat (d : Dev) (n : Nat) (x : SeatSt) : (d.setSeat n x).seat n = x := by
  simp [Dev.seat, Dev.setSeat]
theorem Dev.seat_setSeat_ne (d : Dev) {n m : Nat} (x : SeatSt) (h : m ≠ n) : (d.setSeat n x).seat m = d.seat m := by
  simp [Dev.seat, Dev.setSeat, tget_tput_ne _ _ _ h]
@[simp] theorem Dev.ring_setRing (d : Dev) (n : Nat) (x : RingSt) : (d.setRing n x).ring n = x := by
  simp [Dev.ring, Dev.setRing]

/-! g0 (R104) -/

@[simp] theorem TutorSt.g_zero (x : TutorSt) : x.g 0 = 0 := rfl
@[simp] theorem TutorSt.setG_zero (x : TutorSt) (v : Word) : x.setG 0 v = x := rfl

end Sys2Proof.Machine
end

