-- ==== Sys2Proof/Laws/Ops.lean ====
section
/-! SUPPORT. What each shared operation can do, said once: lifting a device operation to the state, a register write by a master,
one drill instruction, the writes of device memory. -/
namespace Sys2Proof.Machine

/-! Lifting -/

/-- settle leaves the state, or the boot reaches stage 7, 8 or 9. -/
theorem State.settle_cases (s : State) :
    s.settle = s ∨ s.settle = s.bootTo 7 ∨ s.settle = s.bootTo 8 ∨ s.settle = s.bootTo 9 := by
  unfold State.settle; dsimp only; (repeat' split) <;> simp

/-- settle changes nothing of the device but what it has sent: a line on the console. -/
theorem State.settle_dev (s : State) : ∃ l, s.settle.dev = { s.dev with sent := s.dev.sent ++ l } := by
  rcases s.settle_cases with h | h | h | h <;> rw [h]
  · exact ⟨[], by simp⟩
  all_goals exact ⟨[_], rfl⟩

@[simp] theorem State.settle_pending (s : State) : s.settle.pending = s.pending := by
  rcases s.settle_cases with h | h | h | h <;> rw [h] <;> rfl
@[simp] theorem State.settle_regs (s : State) : s.settle.dev.regs = s.dev.regs := by obtain ⟨l, h⟩ := s.settle_dev; rw [h]
@[simp] theorem State.settle_mem (s : State) : s.settle.dev.mem = s.dev.mem := by obtain ⟨l, h⟩ := s.settle_dev; rw [h]
@[simp] theorem State.settle_now (s : State) : s.settle.dev.now = s.dev.now := by obtain ⟨l, h⟩ := s.settle_dev; rw [h]
@[simp] theorem State.settle_plt (s : State) : s.settle.dev.plt = s.dev.plt := by obtain ⟨l, h⟩ := s.settle_dev; rw [h]
@[simp] theorem State.settle_flt (s : State) : s.settle.dev.flt = s.dev.flt := by obtain ⟨l, h⟩ := s.settle_dev; rw [h]

/-- settle changes nothing of the caretaker but the boot stage. -/
theorem State.settle_care (s : State) : ∃ n, s.settle.care = { s.care with run := { s.care.run with stage := n } } := by
  rcases s.settle_cases with h | h | h | h <;> rw [h]
  · exact ⟨s.care.run.stage, rfl⟩
  · exact ⟨7, rfl⟩
  · exact ⟨8, rfl⟩
  · exact ⟨9, rfl⟩

/-- At stage 9 settle does nothing. -/
theorem State.settle_of_stage9 (s : State) (h : s.care.run.stage = 9) : s.settle = s := by
  unfold State.settle; simp [h]

theorem State.onDev_running (s : State) (f : Dev → Dev) (h : s.running = true) :
    s.onDev f = (s.setDev (fun _ => f s.dev)).settle := by
  unfold State.onDev; rw [if_pos h]; rfl

theorem State.onDev_stopped (s : State) (f : Dev → Dev) (h : s.running = false) : s.onDev f = s := by
  unfold State.onDev; simp [h]

theorem State.onHost_up (s : State) (f : Dev → Dev) (h : s.hostUp = true) :
    s.onHost f = (s.setDev (fun _ => f s.dev)).settle := by
  unfold State.onHost; rw [if_pos h]; rfl

theorem State.onHost_down (s : State) (f : Dev → Dev) (h : s.hostUp = false) : s.onHost f = s := by
  unfold State.onHost; simp [h]

/-- The function answers only while the module runs. -/
theorem State.running_of_hostUp {s : State} (h : s.hostUp = true) : s.running = true := by
  simp [State.hostUp] at h; exact h.1.1

/-- A command whose meaning is a device operation yields the device that the operation answers. -/
theorem yields_of_onDev {c : Instr} {s : State} {f : Dev → Dev} (h : exec c s = .next (s.onDev f)) (hr : s.running = true) :
    Yields c s (f s.dev) := by
  rw [Yields, h, s.onDev_running f hr]

/-- A command whose meaning needs the host link yields the device that the operation answers. -/
theorem yields_of_onHost {c : Instr} {s : State} {f : Dev → Dev} (h : exec c s = .next (s.onHost f)) (hr : s.hostUp = true) :
    Yields c s (f s.dev) := by
  rw [Yields, h, s.onHost_up f hr]

/-- Applying a device operation is putting its answer in place. -/
theorem State.setDev_const (s : State) (f : Dev → Dev) : s.setDev f = s.setDev (fun _ => f s.dev) := rfl

/-! Register writes -/

/-- A write that reaches its register, outside the caretaker's block: the device after the register write. -/
theorem State.write_reached (s : State) (m : Master) (a : Nat) (v : Word) (h : s.mayWrite m a = true)
    (hc : ¬ (CTK ≤ a ∧ a < CTK + 0x10000)) : s.write m a v = (s.setDev (fun _ => s.dev.regWrite a v)).settle := by
  unfold State.mayWrite at h
  unfold State.write State.regPut
  rw [if_pos h, if_neg hc]
  exact congrArg State.settle (State.setDev_const s (fun d => d.regWrite a v))

/-- A write that does not reach its register changes nothing. -/
theorem State.write_unreached (s : State) (m : Master) (a : Nat) (v : Word) (h : s.mayWrite m a = false) : s.write m a v = s := by
  unfold State.mayWrite at h
  unfold State.write
  rw [h]
  rfl

/-- A command that writes one register yields the device after the write. -/
theorem yields_of_write {c : Instr} {s : State} {m : Master} {a : Nat} {v : Word} (h : exec c s = .next (s.write m a v))
    (hm : s.mayWrite m a = true) (hc : ¬ (CTK ≤ a ∧ a < CTK + 0x10000)) : Yields c s (s.dev.regWrite a v) := by
  rw [Yields, h, s.write_reached m a v hm hc]

/-- A write whose every mask bit is write-only, and that no rule of its own takes, changes no stored bit. -/
theorem Dev.put32_none (d : Dev) (a : Nat) (mask v : Word) (free : Bool)
    (hh : BitVec.ofNat 32 (specOf a).h &&& mask = 0) (hl : BitVec.ofNat 32 (specOf a).l &&& mask = 0)
    (hc : BitVec.ofNat 32 (specOf a).c &&& mask = 0) : d.put32 a mask v free = d := by
  have h0 : (BitVec.ofNat 32 (specOf a).h &&& mask) = 0#32 := hh
  have h1 : (BitVec.ofNat 32 (specOf a).l &&& mask) = 0#32 := hl
  have h2 : (BitVec.ofNat 32 (specOf a).c &&& mask) = 0#32 := hc
  have h3 : d.rr a &&& 4294967295#32 = d.rr a := BitVec.and_allOnes
  simp [Dev.put32, h0, h1, h2, h3]

/-! Drill instructions -/

/-- A tutor that is about to execute an instruction executes it. -/
theorem Dev.drill_poised {d : Dev} {t mask enc : Nat} (f : Dev → Dev) (h : d.poised t mask enc = true) :
    d.drill t mask enc f = f (d.setTutor t (d.tutor t).ran) := by
  simp only [Dev.poised, Bool.and_eq_true, beq_iff_eq, decide_eq_true_eq] at h
  obtain ⟨⟨⟨⟨⟨h1, h2⟩, h3⟩, h4⟩, h5⟩, h6⟩ := h
  unfold Dev.drill
  dsimp only
  rw [if_neg (by simp [h1]), if_neg (by omega), if_neg (by omega), if_neg (by simp [h4]), if_neg (by simp [h5]), if_pos h6]
  rfl

/-- Everything an instruction can do: nothing (the tutor does not run, or its word is another), a fault of the tutor, or its
effect after it has been counted. -/
theorem Dev.drill_cases (d : Dev) (t mask enc : Nat) (f : Dev → Dev) :
    d.drill t mask enc f = d ∨ (∃ code, d.drill t mask enc f = d.tutorFault t code)
      ∨ d.drill t mask enc f = f (d.setTutor t (d.tutor t).ran) := by
  unfold Dev.drill
  dsimp only
  split
  · exact .inl rfl
  · split
    · exact .inr (.inl ⟨5, rfl⟩)
    · split
      · exact .inr (.inl ⟨3, rfl⟩)
      · split
        · exact .inr (.inl ⟨2, rfl⟩)
        · split
          · exact .inr (.inl ⟨1, rfl⟩)
          · split
            · exact .inr (.inr rfl)
            · exact .inl rfl

/-- An instruction that writes one register, once counted, changes that tutor alone. -/
theorem Dev.put_ran (d : Dev) (t : Nat) (rd : Greg) (v : TutorSt → Word) :
    (d.setTutor t (d.tutor t).ran).put t rd v = d.setTutor t ((d.tutor t).gave rd (v (d.tutor t).ran)) := by
  simp [Dev.put, TutorSt.gave]
  rfl

/-! Device memory -/

/-- The marks of lines change no byte of memory. -/
@[simp] theorem Dev.lineWrites_mem (d : Dev) (a n : Nat) : (d.lineWrites a n).mem = d.mem := by
  unfold Dev.lineWrites
  dsimp only
  generalize List.range 16 = l
  have key : ∀ (l : List Nat) (e : Dev) (f : Dev → Nat → Dev), (∀ e x, (f e x).mem = e.mem) → (l.foldl f e).mem = e.mem := by
    intro l
    induction l with
    | nil => intros; rfl
    | cons x t ih => intro e f hf; rw [List.foldl_cons, ih _ f hf, hf]
  rw [key]
  · split <;> rfl
  · intro e x
    split
    · rfl
    · split <;> rfl

/-- A write of device memory writes those bytes. -/
@[simp] theorem Dev.mwrite_mem (d : Dev) (a : Nat) (b : Bytes) : (d.mwrite a b).mem = d.mem.writeN a b := by
  unfold Dev.mwrite
  dsimp only
  split <;> simp

@[simp] theorem Dev.mzero_mem (d : Dev) (a n : Nat) : (d.mzero a n).mem = d.mem.zero a n := by
  unfold Dev.mzero
  dsimp only
  split <;> simp

/-- Every operation on device memory keeps the canonical form. -/
theorem Dev.mwrite_wf {d : Dev} (a : Nat) (b : Bytes) (h : d.mem.wf = true) : (d.mwrite a b).mem.wf = true := by
  rw [Dev.mwrite_mem]; exact Memory.writeN_wf b a h
theorem Dev.mzero_wf {d : Dev} (a n : Nat) (h : d.mem.wf = true) : (d.mzero a n).mem.wf = true := by
  rw [Dev.mzero_mem]; exact Memory.zero_wf a n h
theorem Dev.scramble_wf {d : Dev} (lo len : Nat) (h : d.mem.wf = true) : (d.scramble lo len).mem.wf = true := by
  unfold Dev.scramble
  split
  · exact h
  · exact Memory.scramble_wf lo len d.free h

end Sys2Proof.Machine
end

