-- ==== Sys2Proof/WellFormed.lean ====
section
/-! DEFINITION. Well-formed commands: operands that the interface can carry. exec is total and needs none of this. -/
namespace Sys2Proof

/-- The mnemonics whose operand a check below constrains stand in the order of the table; every other command is well
formed whatever its operands, since their types say what they may be. -/
def Instr.wf : Instr → Bool
  -- A pair of registers begins at an even one (R114).
  | .mix64 _ rd ra => rd.val % 2 == 0 && ra.val % 2 == 0
  | .reduce _ _ ra _ => ra.val % 2 == 0
  -- Word shifts by an immediate: bits 15 to 5 are zero for SLLI; a LOOP body has 1 to 4,095 instructions (R114, R115).
  | .slli _ _ _ imm => imm.toNat < 32
  | .loop _ _ off => 1 ≤ off.toNat && off.toNat ≤ 4095
  -- Eight registers from r on (R107); a whole lost-and-found entry takes sixteen (R108).
  | .send _ r _ _ => r.val ≤ 24
  | .sendTask _ r => r.val ≤ 24
  | .sendCancel _ r => r.val ≤ 24
  | .sendResub _ r => r.val ≤ 24
  | .sendRingpost _ r => r.val ≤ 24
  | .sendGo _ r => r.val ≤ 24
  | .sendnb _ r _ _ _ => r.val ≤ 24
  | .recv _ r _ => r.val ≤ 24
  | .recvLaf _ r => r.val ≤ 16
  | .recvnb _ r _ _ => r.val ≤ 24
  -- An access carries 1 to 8 bytes, inside BAR0 for the host (R120, R121).
  | .registerWrite m addr width _ => 1 ≤ width.toNat && width.toNat ≤ 8 && (m != .host || addr.toNat < 0x4000000)
  | .bitAliasWrite m addr width _ => m != .tutor && 1 ≤ width.toNat && width.toNat ≤ 8 && (m != .host || addr.toNat < 0x4000000)
  | .loRead m bar2 addr width => m != .tutor && 1 ≤ width.toNat && width.toNat ≤ 4096
    && (if bar2 then m == .host && addr.toNat + width.toNat ≤ 0x4000000 else m != .host || addr.toNat + width.toNat ≤ 0x4000000)
  | .auxCapTbRead m => m != .tutor
  | .doorbell _ width _ => 1 ≤ width.toNat && width.toNat ≤ 8
  | .apertureWrite offset data => 1 ≤ data.length && offset.toNat + data.length ≤ 0x1000000
  | .bar4Access write _ length data => 1 ≤ length && (if write then data.length == length else data.isEmpty)
  -- One read request fetches at most 16 descriptors of 64 bytes (R145).
  | .descriptorFetch data => data.length ≤ 16 && data.all (fun e => match e with | some b => b.length == 64 | none => true)
  -- Gather engines have these seats (R52).
  | .gatherTask seat => 1152 ≤ seat.val && seat.val < 1224
  | .scatterTask seat => 1152 ≤ seat.val && seat.val < 1224
  -- Records and flits of a fixed size (R365, R367, R370, R390); a lane test counts eight lanes (R369).
  | .trainingFrame _ _ marks control => marks.length == 16 && control.length == 16 && (marks ++ control).all (· < 1024)
  | .prbsTestEnd _ errors => errors.length == 8
  | .paramRecord _ record => record.length == 32
  | .flitGroup _ _ _ _ _ flits => flits.length == 5 && flits.all (fun f => f.length == 256)
  | .ringFlit _ _ _ payload => payload.length ≤ 48
  -- Sensors: three dies, sixteen DIMMs; boot finds sixteen channels (R348, R429).
  | .telemetryRefresh t => t.dies.length == 3 && t.dimms.length == 16
  | .bootStageEnd f => f.channels.length ≤ 16
  | _ => true

end Sys2Proof
end

