-- ==== Sys2Proof/Tests/Slice0.lean ====
section
/-! SUPPORT. Tests: ill-formed commands, small results by hand from the spec, and for every statement with hypotheses a state and
operands that meet them (witness_…). -/
namespace Sys2Proof.Tests
open Sys2Proof.Machine
set_option Elab.async false

/-! Small states -/

/-- The module after its first seating, PERST# high. -/
def up : State := { State.reset with care := { power := .good, perstLow := false, run := { stage := 9 } } }
/-- The same with another device. -/
def has (d : Dev) : State := { up with dev := d }
/-- With registers. -/
def regs (l : List (Nat × Word)) : State := has { up.dev with regs := l }
/-- Tutor n in a given state. -/
def tut (n : Nat) (x : TutorSt) : State := has { up.dev with tutors := [(n, x)] }
/-- Tutor 0 about to execute a word, with registers. -/
def drill (w : Nat) (r : List (Nat × Word) := []) : TutorSt := { mode := .running, drill := [(0, BitVec.ofNat 32 w)], regs := r }
def at0 (w : Nat) (r : List (Nat × Word) := []) : State := tut 0 (drill w r)
/-- It is about to execute that word. -/
def ready (s : State) (t mask enc : Nat) : Bool := s.running && s.dev.poised t mask enc

/-! The machine -/

theorem witness_IdleStepIsOneTick : up.pending = [] ∧ up.running = true
    ∧ ({ up with care := { up.care with resetLow := true } } : State).running = false := by decide
theorem witness_OnlySupplyActsWhileStopped :
    ({ up with care := { up.care with power := .off } } : State).running = false ∧ Instr.ofSupply .fwCommitSvn = false := by decide
theorem witness_UnreachedAccessesAreLost :
    (up.hostUp = true ∧ ({ up with care := { up.care with perstLow := true } } : State).hostUp = false ∧ Instr.fromHost (.msixUnmask 0) = true)
    ∧ Instr.regRow (.ttbEnable .tutor 0) = some (Master.tutor, TTB, 0) ∧ up.mayWrite .tutor TTB = false
    ∧ up.mayWrite .tutor (tilReg 0 8) = true ∧ up.mayWrite .host TTB = true := by decide
theorem witness_StepKeepsClockOk : State.reset.ClockOk ∧ up.ClockOk
    ∧ ({ up with care := { up.care with run := { up.care.run with s := 15, sT := 15, sP := 3, floor := 15 } } } : State).ClockOk := by
  refine ⟨?_, ?_, ?_⟩ <;> (unfold State.ClockOk; decide)
theorem witness_StepKeepsFuses : (match step up with | .next t => t.dev.now | _ => 0) = 1 := by decide

/-! Drill instructions -/

theorem witness_DrillArithmetic :
    (([0, 1, 2, 3, 4, 5, 6, 7, 8, 9, 0xA, 0xB, 0xC, 0xE, 0xF] : List Nat).all
        (fun op => ready (at0 (encF1 op 31 0 3)) 0 maskAll (encF1 op 31 0 3)) = true)
    ∧ ready (at0 (encF1 0x0D 1 2 0)) 0 maskAll (encF1 0x0D 1 2 0) = true
    ∧ ready (at0 (encF1 0x0D 1 2 0) [(2, 1)]) 0 maskAll (encF1 0x0D 1 2 0) = true
    ∧ ready (at0 (encF1 0x10 30 0 0)) 0 maskAll (encF1 0x10 30 0 0) = true
    ∧ ready (at0 (encF1 0x11 1 30 2)) 0 maskAll (encF1 0x11 1 30 2) = true
    ∧ (([0x14, 0x15, 0x16, 0x18, 0x19] : List Nat).all
        (fun op => ready (at0 (encF2 op 1 0 0xFFFF)) 0 maskAll (encF2 op 1 0 0xFFFF)) = true)
    ∧ ready (at0 (encF2 0x17 1 2 31)) 0 maskAll (encF2 0x17 1 2 31) = true
    ∧ ready (at0 (encF2 0x1A 1 0 0x8000)) 0 maskAll (encF2 0x1A 1 0 0x8000) = true := by decide +kernel

/-- Tutor 0 with a slate allocation that it may read and write. -/
def slate0 (w : Nat) (r : List (Nat × Word)) : State :=
  { at0 w r with dev := { (at0 w r).dev with plt := { allocs :=
      [{ id := 1, kind := 1, iset := 0, flags := 8, base := SLATE, size := 0x1000, unit := 0, owner := 0xFFFF }] } } }

theorem witness_DrillLoadsAndStores :
    let ld (op : Nat) (imm : BitVec 16) (r : List (Nat × Word)) : Bool := ready (at0 (encF2 op 1 2 imm) r) 0 maskAll (encF2 op 1 2 imm)
    -- misaligned; past scratch; the last word and byte of scratch; the first of the slate
    (([0x1B, 0x1D] : List Nat).all (fun op => ld op 1 [] && ld op 0x2000 [] && ld op 0x1FFC []) = true)
    ∧ (([0x1C, 0x1E] : List Nat).all (fun op => ld op 0x2000 [] && ld op 0x1FFF []) = true)
    ∧ (at0 0).dev.localAt 0 0x2000 4 false = none ∧ (at0 0).dev.localAt 0 0x2000 1 true = none
    ∧ (([0x1B, 0x1C, 0x1D, 0x1E] : List Nat).all (fun op =>
        ready (slate0 (encF2 op 1 2 0) [(2, 0x100000)]) 0 maskAll (encF2 op 1 2 0)) = true)
    ∧ (slate0 0 []).dev.localAt 0 0x100000 4 false = some (.sram SLATE)
    ∧ (slate0 0 []).dev.localAt 0 0x100FFC 4 true = some (.sram (SLATE + 0xFFC)) := by decide +kernel

theorem witness_DrillJumps :
    -- equal registers, and a negative one against a positive one: each condition holds once and fails once
    (([0x20, 0x21, 0x22, 0x23, 0x24, 0x25] : List Nat).all (fun op =>
        ready (at0 (encF2 op 1 2 4)) 0 maskAll (encF2 op 1 2 4)
        && ready (at0 (encF2 op 1 2 4) [(1, 0xFFFFFFFF), (2, 1)]) 0 maskAll (encF2 op 1 2 4)
        && ready (at0 (encF2 op 2 1 4) [(1, 0xFFFFFFFF), (2, 1)]) 0 maskAll (encF2 op 2 1 4)) = true)
    ∧ ready (at0 (encF4 0x28 0x3FFFFFF)) 0 maskAll (encF4 0x28 0x3FFFFFF) = true
    ∧ ready (at0 (encF4 0x29 1)) 0 maskAll (encF4 0x29 1) = true
    ∧ (([0, 1] : List (BitVec 16)).all (fun i => ready (at0 (encF2 0x1F 31 1 i)) 0 maskAll (encF2 0x1F 31 1 i)) = true)
    -- LOOP: a body that runs, a count of 0, a third loop, a body past the drill store
    ∧ ready (at0 (encF2 0x26 1 0 4095) [(1, 0xFFFF)]) 0 maskAll (encF2 0x26 1 0 4095) = true
    ∧ ready (at0 (encF2 0x26 1 0 1) [(1, 0x10000)]) 0 maskAll (encF2 0x26 1 0 1) = true
    ∧ ready (tut 0 { drill (encF2 0x26 1 0 1) with loops := [⟨4, 8, 1⟩, ⟨4, 12, 2⟩] }) 0 maskAll (encF2 0x26 1 0 1) = true
    ∧ ready (tut 0 { drill 0 with drill := [(1, BitVec.ofNat 32 (encF2 0x26 1 0 4095))], pc := 4 }) 0 maskAll (encF2 0x26 1 0 4095) = true
    ∧ (4 + 4 * 4095 = 16384) := by decide +kernel

/-- A message. -/
def msg8 : List Word := List.replicate 8 5
/-- Tutor 0 at a word, eight messages in a queue of tutor 1, whose reference is 1. -/
def full1 (w queue : Nat) : State :=
  has { up.dev with tutors := [(0, drill w [(2, 1)]), (1, { queues := [(queue, List.replicate 8 msg8)] })] }

theorem witness_DrillSends :
    denseTutor 1 = some 1 ∧ denseTutor 0xFFFF = none
    ∧ (([(0x30, maskSend), (0x31, maskAll)] : List (Nat × Nat)).all (fun p =>
        let go (r rt : Greg) (q : Byte) (v : Word) : Bool := ready (at0 (encF5 p.1 r rt q 0) [(2, v)]) 0 p.2 (encF5 p.1 r rt q 0)
        -- past g31, a special queue, no tutor; a full queue; room
        go 25 2 0 1 && go 24 2 0x0C 1 && go 24 2 0x0B 0xFFFF && go 24 2 0x0B 1
          && ready (full1 (encF5 p.1 24 2 0x0B 0) 0x0B) 0 p.2 (encF5 p.1 24 2 0x0B 0)) = true)
    ∧ (tget [] ((full1 0 0x0B).dev.tutor 1).queues 0x0B).length = 8 := by decide +kernel

/-- A task in a quadrant. -/
def task0 : Task := { uid := 1, idx := some 0, phase := .offered }
/-- Tutor 0 at a word and a task offered on its seat. -/
def offered0 (w : Nat) : State :=
  has { up.dev with tutors := [(0, drill w)], quads := [(0, { tasks := [task0] })], seats := [(0, { slots := [(0, 1)] })] }

theorem witness_DrillSpecialQueues :
    (([0x80, 0x81, 0x83, 0x84, 0x85] : List Byte).all (fun q => ready (at0 (encF5 0x30 24 0 q 0)) 0 maskSend (encF5 0x30 24 0 q 0)) = true)
    ∧ ready (tut 0 { drill (encF5 0x30 24 0 0x81 0) with queues := [(15, List.replicate 8 msg8)] }) 0 maskSend (encF5 0x30 24 0 0x81 0) = true
    ∧ ready (offered0 (encF5 0x30 1 0 0x85 0)) 0 maskSend (encF5 0x30 1 0 0x85 0) = true
    ∧ tutorSeat 0 = some 0 ∧ (offered0 0).dev.offeredAt 0 0 = some (0, 1) ∧ (offered0 0).dev.task 0 1 = some task0
    ∧ ((offered0 0).dev.seat 0).runSince = none ∧ (at0 0).dev.offeredAt 0 0 = none := by decide +kernel

/-- Scheduler tutor of quadrant 7 at a RECV of the lost-and-found queue, which holds an entry. -/
def laf7 : State :=
  has { up.dev with tutors := [(1231, drill (encF5 0x32 16 0 0x82 0))], quads := [(7, { laf := [zeros 64] })] }

theorem witness_DrillReceives :
    let got (w : Nat) (q : Nat) : State := tut 0 { drill w with queues := [(q, [msg8])] }
    -- a bad range, a bad queue, an empty queue, a message, in the last queue
    (([(25, 0x0F), (24, 0x10), (24, 0x0F)] : List (Greg × Byte)).all (fun p =>
        ready (at0 (encF5 0x32 p.1 0 p.2 0)) 0 maskSend (encF5 0x32 p.1 0 p.2 0)) = true)
    ∧ ready (got (encF5 0x32 24 0 0x0F 0) 0x0F) 0 maskSend (encF5 0x32 24 0 0x0F 0) = true ∧ msg8.length = 8
    ∧ ready (at0 (encF5 0x33 24 0 0x0F 3)) 0 maskAll (encF5 0x33 24 0 0x0F 3) = true
    ∧ ready (got (encF5 0x33 24 0 0x0F 3) 0x0F) 0 maskAll (encF5 0x33 24 0 0x0F 3) = true
    ∧ (([0x0F, 0x10] : List Byte).all (fun q => ready (at0 (encF5 0x34 1 0 q 0)) 0 maskSend (encF5 0x34 1 0 q 0)) = true)
    ∧ ready laf7 1231 maskSend (encF5 0x32 16 0 0x82 0) = true ∧ laf7.dev.rbit (qdrReg 7 0) 2 = false
    ∧ (laf7.dev.quad 7).laf = [zeros 64] ∧ (zeros 64).length = 64 := by decide +kernel

theorem witness_DrillEvents :
    let ev (w : Nat) (m e : Word) : State := tut 0 { drill w [(2, m)] with events := e }
    ready (ev (encF6 0x38 1 2 0) 0x10 0x20) 0 maskWait (encF6 0x38 1 2 0) = true
    ∧ (ev 0 0x10 0x20).dev.eventsNow 0 &&& 0x10 = 0
    ∧ ready (ev (encF6 0x38 1 2 0) 0x80000000 0x80000000) 0 maskWait (encF6 0x38 1 2 0) = true
    ∧ ((ev 0 0x80000000 0x80000000).dev.eventsNow 0 &&& 0x80000000#32).getLsbD 31 = true
    ∧ (([0, 1, 0xFFFF] : List Word).all (fun v => ready (at0 (encF6 0x39 0 2 15) [(2, v)]) 0 maskSig (encF6 0x39 0 2 15)) = true)
    ∧ denseTutor 0 = some 0
    ∧ (([0, 1] : List Word).all (fun v => ready (at0 (encF6 0x3A 0 2 0) [(2, v)]) 0 maskSet (encF6 0x3A 0 2 0)) = true)
    ∧ (([0, 1, 2, 3, 4, 5, 6, 7, 15] : List (BitVec 4)).all (fun i => ready (at0 (encF6 0x3B 1 0 i)) 0 maskRd (encF6 0x3B 1 0 i)) = true)
    ∧ ready (tut 1224 (drill (encF6 0x3B 1 0 3))) 1224 maskRd (encF6 0x3B 1 0 3) = true ∧ tutorSeat 1224 = none
    ∧ ready (at0 (encF6 0x3C 0 0 0)) 0 maskOp (encF6 0x3C 0 0 0) = true
    ∧ ready (at0 (encF6 0x3D 0 0 0)) 0 maskOp (encF6 0x3D 0 0 0) = true := by decide +kernel

theorem witness_TutorControl :
    (([0, 1223, 1231, 1237] : List Nat).all (fun t => up.mayWrite .host (tutorRegs t) && !up.dev.rbit (tutorRegs t) 0) = true)
    ∧ maskedBit 0x10001 0 true ∧ ¬ maskedBit 0x10001 1 true ∧ maskedBit 0x10000 0 false
    ∧ (regs [(tutorRegs 0, 1)]).dev.rbit (tutorRegs 0) 0 = true
    ∧ unmaskedBit 0x20002 0 ∧ maskedBit 0x20002 1 true
    ∧ (tut 0 { timer := some 0 }).running = true ∧ (tut 0 { timer := some 0 }).dev.now = 0 ∧ ((tut 0 { timer := some 1 }).dev.tutor 0).timer = some 1
    ∧ (tut 0 { mode := .running, spent := 65537 }).dev.budget 0 = 65536
    ∧ (let s := tut 0 { mode := .waiting, drill := [(0, BitVec.ofNat 32 (encF6 0x38 1 2 0))], regs := [(2, 8)], events := 8 }
       bits (s.dev.tutor 0).word 20 16 = 2 ∧ (s.dev.eventsNow 0 &&& 8#32).getLsbD 3 = true
       ∧ (s.dev.tutor 0).mode = .waiting ∧ ∀ j, j < 3 → (s.dev.eventsNow 0 &&& 8#32).getLsbD j = false) := by
  unfold maskedBit unmaskedBit; decide +kernel

theorem witness_TutorFaults :
    let s (pc : Word) (spent : Nat) : State := tut 0 { mode := .running, pc, spent }
    (s 0 65537).running = true ∧ (s 0 65537).dev.budget 0 < 65537 ∧ (s 16384 65536).dev.budget 0 = 65536
    ∧ ((s 16384 65536).dev.tutor 0).pc.toNat = 16384 ∧ ((s 16382 65536).dev.tutor 0).pc.toNat % 4 = 2
    ∧ legalWord ((tut 0 (drill 0xFC000000)).dev.tutor 0).word = false := by decide +kernel

/-! Registers -/

theorem witness_CounterClears :
    (([0, 71] : List Nat).all (fun c => up.mayWrite .tutor (cluReg c 8) && up.mayWrite .tutor (cluReg c 0x804) && up.mayWrite .tutor (cluReg c 0x400)) = true)
    ∧ (([0, 1151] : List Nat).all (fun t => up.mayWrite .host (tilReg t 8) && up.mayWrite .host (tilReg t 0x58)
        && up.mayWrite .host (tilReg t 0x60) && up.mayWrite .host (tilReg t 0xA0)) = true)
    ∧ up.mayWrite .host (qdrReg 7 0x82C) = true ∧ up.mayWrite .caretaker (MEM + 0x31018) = true ∧ up.mayWrite .host (MEM + 0x20) = true
    ∧ maskedBit 0x10001 0 true ∧ maskedBit 0x20002 1 true ∧ unmaskedBit 0x20002 0 ∧ ¬ maskedBit 0x20002 0 true
    ∧ ((has { up.dev with seats := [(0, { runSince := some (0, 0) })] }).dev.seat 0).runSince = some (0, 0) := by
  unfold maskedBit unmaskedBit; decide +kernel

theorem witness_RegisterWrites :
    let pht (o : Nat) : BitVec 48 := BitVec.ofNat 48 (PHT + o)
    (globalReg (pht 0xC).toNat ∧ globalReg GLB ∧ globalReg (GLB + 0xFFFFFC))
    ∧ (pht 0xC).toNat = PHT + 0xC ∧ (pht 0x10).toNat = PHT + 0x10 ∧ up.running = true
    ∧ ¬ ((2#8).toNat = 4 ∧ (pht 0xC).toNat % 4 = 0) ∧ ¬ ((2#8).toNat = 8 ∧ (pht 0xC).toNat % 8 = 0)
    ∧ up.dev.target (0x10000000000#48).toNat = .nothing
    ∧ up.dev.rbit PHT 31 = false ∧ (regs [(PHT, 0x80000000)]).dev.rbit PHT 31 = true := by
  unfold globalReg; decide +kernel

theorem witness_SingleBitWrites :
    (BitVec.ofNat 48 (BITW + (MEM + 0x10 - GLB) / 4 * 128 + 4 * 31)).toNat = BITW + (MEM + 0x10 - GLB) / 4 * 128 + 4 * 31
    ∧ (BitVec.ofNat 48 (BITW + (PHT + 0xC - GLB) / 4 * 128)).toNat = BITW + (PHT + 0xC - GLB) / 4 * 128 + 4 * 0
    ∧ (regs [(PHT, 0x80000000)]).running = true ∧ (regs [(PHT, 0x80000000)]).dev.rbit PHT 31 = true := by decide +kernel

/-- Set 0 holds 64 GiB, and two allocations: on slate 0 and in DRAM, visible to the host. -/
def windows : State :=
  has { up.dev with
        regs := [(GLB + 0x18, 0), (GLB + 0x1C, 0x4000), (memSet 0 0, 0x80000001), (memSet 0 0xC, 0), (memSet 0 0x10, 16)]
        plt := { allocs := [{ id := 1, kind := 1, iset := 0, flags := 1, base := SLATE, size := 0x10, unit := 0, owner := 0xFFFF },
                            { id := 2, kind := 0, iset := 0, flags := 1, base := 0, size := 0x10, unit := 0, owner := 0xFFFF }] } }

theorem witness_HostWindows :
    windows.hostUp = true ∧ windows.dev.apertureAddr 0xF = SLATE + 0xF ∧ isSram (SLATE + 0xF) = true
    ∧ (∀ i, i < 2 → canon (SLATE + 0xF + i) = SLATE + 0xF + i)
    ∧ windows.dev.sramVisible (SLATE + 0xF) = true ∧ windows.dev.sramVisible (SLATE + 0x10) = false
    ∧ windows.dev.bar4Addr 0xF = 0xF ∧ (∀ i, i < 2 → (windows.dev.setOf (0xF + i)).isSome = true)
    ∧ windows.dev.dramVisible 0xF = true ∧ windows.dev.dramVisible 0x10 = false ∧ windows.dev.lines = [] := by decide +kernel

theorem witness_RegisterReads :
    globalReg (PHT + 0x28) ∧ isLo (PHT + 0x28) = true ∧ isLo (PHT + 0x2C) = false ∧ isLo (PHT + 0x50) = false
    ∧ (has { up.dev with host := { holdCare := some (PHT + 0x2C, 1) } }).dev.host.holdCare = some (PHT + 0x2C, 1)
    ∧ up.dev.host.holdCare = none ∧ up.dev.host.holdHost = none ∧ up.hostUp = true ∧ up.running = true := by
  unfold globalReg; decide +kernel

/-! Bells, phase tracker, pins, timetable -/

/-- An enabled tracker: PHT_SRC, the tracker's state, the timebase count. -/
def tracker (src : Word) (pht : Pht) (now : Nat := 0) (more : List (Nat × Word) := []) : Dev :=
  { up.dev with regs := [(PHT, 0x82443400), (PHT + 4, src)] ++ more, pht, now }

theorem witness_Bells :
    let s := has (tracker 0xF {})
    let t := has (tracker 0x10F {})
    -- sources 1 and 4 accepted, the falling edge selected, and the edge not selected
    s.running = true ∧ (s.dev.pinEdge 0 false).judge 1 none = .accept 1 false ∧ (t.dev.pinEdge 0 true).rbit (PHT + 4) 8 = true
    ∧ (t.dev.pinEdge 0 true).judge 1 none = .accept 1 false ∧ (s.dev.pinEdge 0 true).rbit (PHT + 4) 8 = false
    ∧ (([0x10000000, 0x20000000] : List Word).map (fun v => ((has (tracker 0xF {} 0 [(pinCfg 2, v)])).dev.pinEdge 2 false).pinRole 2)) = [1, 2]
    ∧ ((has (tracker 0xF {} 0 [(pinCfg 2, 0x10000000)])).dev.pinEdge 2 false).judge 2 none = .accept 1 false
    ∧ s.mayWrite .host (PHT + 0x40) = true ∧ s.dev.judge 4 none = .accept 1 false
    -- a flit of the origin followed
    ∧ (let f := has { tracker 0x7FF000F {} with fab := { ports := [(3, { state := 5 })] } }
       (f.dev.port 3).state = 5 ∧ (2047#11).toNat = (f.dev.forwardBell 3 2047 9).rf (PHT + 4) 26 16
       ∧ (f.dev.forwardBell 3 2047 9).judge 3 (some 9) = .accept 9 true)
    -- the gap, one cycle short and just long enough, and the last count
    ∧ s.dev.rbit PHT 31 = true ∧ s.dev.srcOn 1 = true ∧ s.dev.activeNow = 0 ∧ s.dev.rn (PHT + 0x10) = 4000
    ∧ (let r := tracker 0xF { active := 1, lastAcc := some 0 } 3999
       3999 - 0 < r.rn (PHT + 0x10) ∧ r.takesOver 1 = false ∧ r.activeNow = 1)
    ∧ (tracker 0xF { active := 1, lastAcc := some 0 } 4000).rn (PHT + 0x10) ≤ 4000 - 0
    ∧ ((tracker 0xF {}).pht.step < (1 : Tag)) ∧ (0 : Tag) ≤ (tracker 0xF {}).pht.step := by decide +kernel

theorem witness_AcceptedBellStepsTheCounter : (tracker 0xF {}).plt.staged = none ∧ (tracker 0xF {}).plt.seated = false := by decide

theorem witness_PhaseTracker :
    let c : LoopCfg := { a := 2, b := 4, win := 4000, lock := 4, loss := 3 }
    let h (mode : PhtMode) (n : Nat) : Pht := { mode, p := 8000 * 4096, havePrev := true, inwin := n, outliers := n }
    let far (t : Nat) : Prop := c.win * 4096 < ((t : Int) * 4096 - ((h .unlocked 0).x + (h .unlocked 0).p)).natAbs
    -- the edges of the window, both sides; either mode; the last bell before LOCK and before LOSS
    (([4000, 12000] : List Nat).all (fun t => decide (((t : Int) * 4096 - ((h .unlocked 0).x + (h .unlocked 0).p)).natAbs ≤ c.win * 4096)) = true)
    ∧ far 3999 ∧ far 12001 ∧ (h .unlocked 2).inwin + 1 < c.lock ∧ c.lock ≤ (h .unlocked 3).inwin + 1 ∧ 0 < c.loss
    ∧ c.loss ≤ (h .tracking 2).outliers + 1 ∧ ¬ c.loss ≤ (h .tracking 1).outliers + 1
    -- the end of the window
    ∧ (let s (sh : Tbl Nat) : State := has (tracker 0xF { mode := .tracking, p := 8000 * 4096, havePrev := true, active := 1, shadow := sh } 12001
          [(PHT + 0xC, 4000)])
       (s []).running = true ∧ (s []).dev.hasPrediction = true ∧ (s []).dev.windowPassed = true ∧ (s []).dev.adoptable = none
       ∧ (s []).dev.pht.examined = false ∧ (s [(2, 8000)]).dev.adoptable = some (2, 8000) ∧ (s [(2, 8000)]).dev.windowPassed = true)
    -- the end of HOLDOVER, to the cycle
    ∧ (let s := has (tracker 0xF { mode := .holdover, p := 8000 * 4096 } 16000 [(PHT + 0x14, 2)])
       s.dev.rbit PHT 31 = true ∧ (s.dev.rf (PHT + 0x14) 15 0 : Int) * s.dev.pht.p ≤ ((s.dev.now - s.dev.pht.holdSince : Nat) : Int) * 4096)
    ∧ up.mayWrite .host PHT = true ∧ up.dev.rbit PHT 31 = false ∧ (has (tracker 0xF {})).dev.rbit PHT 31 = true
    ∧ (has (tracker 0xF {})).dev.plt.staged = none ∧ (0x80000000#32).getLsbD 31 = true := by decide +kernel

theorem witness_Pins :
    (([0, 1, 2, 3] : List (Fin 4)).all (fun p =>
        let k := 3 + p.val
        let s (v : Word) : State := regs [(pinCfg k, v)]
        ((s 0x20000000).dev.pinEdge k false).pinRole k == 2 && !((s 0x20000000).dev.pinEdge k false).rbit (pinCfg k) 9
          && ((s 0x20000200).dev.pinEdge k true).rbit (pinCfg k) 9) = true)
    ∧ up.running = true ∧ (up.dev.pinEdge 3 false).pinRole 3 = 0
    ∧ (let s := regs [(pinCfg 2, 1), (pinCfg 6, 1), (pinCfg 3, 3)]
       s.dev.pinReq 2 ≠ 0 ∧ s.dev.pinReq 6 ≠ 0 ∧ s.dev.grants 6 ≠ s.dev.pinReq 6 + 1 ∧ s.dev.grants 2 = 2 ∧ s.dev.grants 3 = 4)
    ∧ (let s := has { up.dev with regs := [(pinCfg 6, 0x40000100)], pulses := [(6, 5)], now := 5 }
       tfind s.dev.pulses 6 = some 5 ∧ 5 ≤ s.dev.now ∧ s.dev.pinRole 6 = 4 ∧ s.dev.rbit (pinCfg 6) 8 = true)
    ∧ (has { up.dev with pht := { stepOutUntil := some 5 }, now := 5 }).dev.pht.stepOutUntil = some 5 := by decide +kernel

/-- An enabled timetable with one entry: its words A, B and ARG, its target 0. -/
def table (n : Nat) (a b arg : Word) (more : List (Nat × Word) := []) : State :=
  has { up.dev with regs := [(TTB, 0x80000000), (ttbEnt n 0, a), (ttbEnt n 4, b), (ttbEnt n 8, arg), (ttbEnt n 12, 0), (ttbEnt n 16, 0)] ++ more }

theorem witness_Timetable :
    (([0, 255] : List Nat).all (fun n => up.mayWrite .host (ttbEnt n 4) && !up.dev.rbit (ttbEnt n 4) 31) = true)
    ∧ up.dev.rbit TTB 31 = false ∧ bits (0x800A0000#32).toNat 23 16 ≤ 10 ∧ up.mayWrite .host TTB = true
    ∧ (∀ k, k < 256 → up.dev.ttDue k = false)
    -- the last entry fires, once and in a series
    ∧ (([0x80020000, 0xC002FF00] : List Word).all (fun b =>
        let s := table 255 0 b 0
        s.running && s.dev.ttOnTime 255
          && (List.range 256).all (fun k => !s.dev.ttOnTime k || k == 255)) = true)
    ∧ ((table 255 0 0x80020000 0).dev.ttAction 255 0 false).rbit (ttbEnt 255 4) 30 = false
    ∧ ((table 255 0 0xC002FF00 0).dev.ttAction 255 0 false).rbit (ttbEnt 255 4) 30 = true
    -- each action
    ∧ (([2, 4, 6, 7, 8] : List Nat).all (fun a => (table 0 0 (BitVec.ofNat 32 (0x80000000 + a * 65536)) 0).dev.rf (ttbEnt 0 4) 23 16 == a) = true)
    ∧ denseTutor (bits 0x2000 13 12 * 0x1000 + bits 0x2000 10 0) = some 1224
    ∧ (let s := table 0 0 0x80070000 3 [(rngReg 3 0, 0xC0000000)]
       s.dev.rn (ttbEnt 0 8) = 3 ∧ s.dev.ringEn 3 = true ∧ s.dev.ringKind 3 = 2)
    ∧ (let s := table 0 0 0x80080000 0x103 [(pinCfg 6, 0x40000000)]
       s.dev.rn (ttbEnt 0 8) = 0x103 ∧ s.dev.pinRole (3 + 0x103 % 4) = 4 ∧ bits 0x103 9 8 ≤ 1) := by decide +kernel

/-! Emission, statistics, Plats -/

/-- A task on a seat, its one operand the bytes at 0x1000. -/
def job (seat role : Nat) (params data : Bytes) (arg tag : Nat := 0) : Task :=
  { uid := 1, idx := some 0, role, phase := .seated_, on := seat, params, arg, tag := BitVec.ofNat 48 tag
    slots := [(0, { pkt := mkPkt 0 role 0 0xFFFF 0 1 0 0 tag 0x1000 data.length arg, sender := 0xFFFF })] }
/-- A device at whose seat a task works. -/
def atSeat (seat : Nat) (t : Task) (data : Bytes) : Dev :=
  { up.dev with mem := ({} : Memory).writeN 0x1000 data, quads := [(0, { tasks := [t], nextUid := 2 })]
                seats := [(seat, { role := t.role, slots := [(0, 1)] })] }
/-- A decoded batch of no rows. -/
def noRows : Bytes := ({ samples := 0, filled := 0, valid := [], subst := [], cols := [] } : DBatch).bytes
def anEmission : Emission := { tag := 7, status := .ok, addr := none, length := 64, tokens := 0, head := zeros 64 }
def aRoute : Route :=
  { id := 0, src := 0xE03F, dkind := 4, tc := 0, retire := false, dest := 9, dquad := 0, role := 0, slot := 0, pri := 0, opcount := 0
    stamp := 0, lane := 0, srcChan := 0xFF, dstChan := 0xFF, weight := 1, arg := 0 }

/-- A parameter block of n entries, its output allocation 1 of slots of 16 KiB, and what follows the first 32 bytes. -/
def pars (n : Nat) (ops : Bytes) : Bytes := leB 2 n ++ zeros 2 ++ leB 4 1 ++ leB 4 0x4000 ++ zeros 4 ++ leB 4 4 ++ zeros 12 ++ ops
/-- A column operation: code, mode, IN_A, IN_B, OUT, and its last 20 bytes. -/
def anOp (op mode inA inB out : Nat) (rest : Bytes := zeros 20) : Bytes :=
  leB 1 op ++ leB 1 mode ++ leB 2 inA ++ leB 2 inB ++ leB 2 out ++ zeros 4 ++ rest
/-- A batch of valid samples. -/
def batch (n : Nat) (cols : List BCol) : DBatch :=
  { samples := n, filled := n, valid := List.replicate n true, subst := List.replicate n false, cols }
/-- A device at whose seat a task works, with an output allocation of four slots in DRAM and a table of 1 KiB. -/
def working (seat : Nat) (t : Task) (data : Bytes) : Dev :=
  { atSeat seat t data with plt := { allocs :=
      [{ id := 1, kind := 0, iset := 0, flags := 0, base := 0x100000, size := 0x10000, unit := 0, owner := 0xFFFF },
       { id := 2, kind := 0, iset := 0, flags := 0, base := 0x200000, size := 0x400, unit := 0, owner := 0xFFFF }] } }
/-- The task works at the seat, its operand is read, and an output of n bytes has room. -/
def works (seat : Nat) (t : Task) (data : Bytes) (role n : Nat) : Bool :=
  let d := working seat t data
  (has d).running && d.atWork seat role == some (0, t) && (d.operandData t 0).2 == some data && d.hasSlot t.params n

/-- The station is 0 of a row of two, its port 0 seated. -/
def fabricOn (d : Dev) : Dev :=
  { d with regs := [(LNK, 0x80000000), (LNK + 0xC, 0x201), (LNK + 0x10004, 0x9000)], seats := d.seats ++ [(1296, { role := 15 })] }

/-- An ENCODE seat of stream n, with slots of 16 KiB in allocation 1. -/
def encSeatOf (n : Nat) : SeatEntry :=
  { seat := 0, role := 11, pri := 0, drill := 0xFFFF, subst := 0xFFFF, params := patch (zeros 32) 2 (leB 1 n ++ zeros 5 ++ leB 4 1 ++ leB 4 0x4000) }
def encSeat : SeatEntry := encSeatOf 0
def encSeat63 : SeatEntry := encSeatOf 63
/-- A route to Ethernet port 0. -/
def portRoute : Route := { aRoute with src := 0, dkind := 0, dest := 0x6004 }

theorem witness_EncodeAndEmission :
    let t := job 0 11 (zeros 32) noRows
    let d : Dev := { atSeat 0 t noRows with emits := [(0, { batches := [{ tag := 0 }] })] }
    ((has d).running = true ∧ d.atWork 0 11 = some (0, t) ∧ bit t.arg 31 = false ∧ t.arg = 0 ∧ t.tag ≠ BitVec.allOnes 48
      ∧ (d.operandData t 0).2 = some noRows ∧ ((t.operand 0).map Pkt.length).getD 0 ≠ 0
      ∧ (d.encInput t.params t.tag t.subst noRows).isSome = true ∧ (((d.operandData t 0).1.emitSt 0).batch t.tag).isSome = true)
    -- the first task of its batch opens it; bytes that are no batch; an ARG
    ∧ (let e : Dev := { working 0 t noRows with plt := { (working 0 t noRows).plt with seats := [encSeat] } }
       e.atWork 0 11 = some (0, t) ∧ ((e.operandData t 0).1.emitSt 0).batch t.tag = none ∧ e.laneBefore 0 t = false
       ∧ ((e.operandData t 0).1.encParams 0).isSome = true ∧ e.flt.aborted = []
       ∧ ((e.operandData t 0).1.takeSlot 1 0x4000).isSome = true ∧ fld encSeat.params 8 4 = 1 ∧ fld encSeat.params 12 4 = 0x4000)
    ∧ (up.dev.encInput t.params t.tag false (zeros 3)).isNone = true
    ∧ (atSeat 0 (job 0 11 (zeros 32) noRows 5) noRows).atWork 0 11 = some (0, job 0 11 (zeros 32) noRows 5)
    -- lookup work of one row, its key column 0
    ∧ (let b0 := (batch 1 [mkCol 0 4 0 8 [] [some (leB 8 7)] []]).bytes
       let t : Task := { job 0 11 (patch (zeros 32) 8 (leB 4 1 ++ leB 4 64 ++ leB 4 32)) b0 0 (2 ^ 48 - 1) with routes := [portRoute] }
       let e := working 0 t b0
       e.atWork 0 11 = some (0, t) ∧ t.portRoute = some portRoute ∧ t.tag = BitVec.allOnes 48 ∧ fld t.params 6 2 ≠ 0xFFFF
       ∧ (match (e.operandData t 0).1.taskBatch t b0 ((e.operandData t 0).1.readBatch b0) with
          | some b => (match b.col 0 with | some k => k.type == 4 && k.flat b.samples && (encFields t.params).all (·.accepts b) | none => false)
              && (match (e.operandData t 0).1.place 1 64 [lookupRegion t.params b (b.col 0 |>.getD default) t.tag] with
                  | .done _ _ => true | _ => false)
          | none => false) = true)
    -- emissions: into the host, to a role, to a station out of reach and in reach, and one that has been sent
    ∧ (let e (m : Emission) (r : Route) : Dev := { up.dev with emits := [(63, { cur := some m })], plt := { routes := [r], seats := [encSeat63] } }
       let local_ := { anEmission with addr := some 0x1000 }
       ((e anEmission aRoute).emitSt 63).cur = some anEmission ∧ anEmission.sentAll = false ∧ (e anEmission aRoute).emitRoute 63 = some aRoute
       ∧ aRoute.dkind = 4 ∧ (e local_ { aRoute with dkind := 1 }).emitRoute 63 = some { aRoute with dkind := 1 }
       ∧ ((e local_ { aRoute with dkind := 1 }).emitSt 63).due = [] ∧ local_.length + 16 ≤ (e local_ aRoute).emissionRoom 63 local_.packed
       ∧ (e anEmission { aRoute with dkind := 3 }).sendable 9 = none
       ∧ (fabricOn (e anEmission { aRoute with dkind := 3, dest := 1 })).sendable 1 = some 0
       ∧ ((e { anEmission with sentAll := true } aRoute).emitSt 63).cur = some { anEmission with sentAll := true }) := by
  decide +kernel

theorem witness_Statistics :
    let t := job 1224 14 (zeros 32) noRows 0 5
    let d := atSeat 1224 t noRows
    let s (x : FbTags) : Dev := { up.dev with fb := { cols := [(0, { unit := 71, stream := 63, exp := 0, extAlloc := 0, seed := [] })]
                                                      tags := [(fbKey 71 63, x)] } }
    ((has d).running = true ∧ d.atWork 1224 14 = some (0, t) ∧ t.tag ≠ BitVec.allOnes 48 ∧ d.statStreams (colOps t.params) = []
      ∧ colOps t.params = [] ∧ tfind d.fb.waits 0 = none ∧ (d.operandData t 0).2 = some noRows ∧ (d.inputBatch t.params noRows).isSome = true
      ∧ (up.dev.inputBatch t.params (zeros 3)).isNone = true)
    -- lookup work, and a record that must wait for an older tag
    ∧ (atSeat 1224 (job 1224 14 (zeros 32) noRows 0 (2 ^ 48 - 1)) noRows).atWork 1224 14
        = some (0, job 1224 14 (zeros 32) noRows 0 (2 ^ 48 - 1))
    ∧ (let t := job 1295 14 (pars 1 (anOp 0x38 0 0 0xFFFF 0xFFFF)) noRows 0 5
       let d := { atSeat 1295 t noRows with fb := (s { opened := [(0, false), (1, false), (2, false), (3, false)] }).fb }
       d.atWork 1295 14 = some (0, t) ∧ tfind d.fb.waits 71 = none ∧ d.statStreams (colOps t.params) = [63]
       ∧ (d.fbTags 71 63).stalls t.tag = true)
    -- sealing: no tag open, the tag itself open, behind an earlier one; an aborted tag alone, and behind an earlier one
    ∧ ((s {}).fbCols 71 63 ≠ [] ∧ ((s {}).fbTags 71 63).opened = [] ∧ ((s {}).fbTags 71 63).aborted = []
      ∧ ((s {}).fbTags 71 63).sealed_.contains 3 = false ∧ ((s { opened := [(3, true)] }).fbTags 71 63).opened = [(3, true)]
      ∧ ((s { opened := [(2, false)] }).fbTags 71 63).opened = [(2, false)]
      ∧ ((s { aborted := [3] }).fbTags 71 63).aborted = [3]
      ∧ ((s { aborted := [3], opened := [(2, false)] }).fbTags 71 63).opened = [(2, false)]
      ∧ ((s {}).fb.cols.map (·.1)).Nodup)
    ∧ (([some (-5), none, some 7] : List (Option Int)).foldl (fun r v => match v with | some v => r.add v | none => r.addNull) ({} : FbRec)).sumSat
        = false
    ∧ up.mayWrite .host (ATT + 0x20) = true ∧ up.running = true := by
  decide +kernel
/-- The premise about a unit's entries: with none, nothing is observed. -/
theorem witness_Statistics_observes : ∀ b e, observeOps 0 (zeros 32) 5 b (colOps (zeros 32)) e = (e, true) := by
  have h : colOps (zeros 32) = [] := by decide +kernel
  intro b e; rw [h]; rfl

/-- The least drill image container: sections 5 and 11, both of no bytes. -/
def container : Bytes :=
  patch (patch (patch (patch (zeros 256) 0 (leB 4 0x54414C50 ++ leB 2 1 ++ leB 1 2 ++ leB 1 0xA1 ++ leB 4 256 ++ leB 2 2)) 32 (leB 2 0xFFFF ++ leB 2 1))
    64 (leB 2 5 ++ leB 2 0 ++ leB 4 128)) 80 (leB 2 11 ++ leB 2 0 ++ leB 4 128)
/-- A descriptor: opcode, ADDR, LENGTH, the field at 28, the eight bytes at 32, ARG. -/
def dsc (op : Nat) (addr len a28 a32 arg : Nat := 0) : Bytes :=
  patch (patch (zeros 64) 0 (leB 1 op)) 16 (leB 8 addr ++ leB 4 len ++ leB 4 a28 ++ leB 8 a32 ++ leB 4 arg)
/-- A descriptor stands at the front of ring n. -/
def atRing (n : Nat) (b : Bytes) (d : Dev := up.dev) : Dev :=
  { d with host := { d.host with rings := [(n, { fetched := [{ index := 5, desc := some b }], open_ := [0] })] } }
/-- A Plat is seated; interleave set 0 holds 64 GiB. -/
def settled : Dev :=
  { up.dev with regs := [(memSet 0 0, 0x80000001), (memSet 0 0xC, 0), (memSet 0 0x10, 16)], plt := { seated := true } }

theorem witness_PlatAndSeating :
    let b := dsc 0x41 0 256
    let s := has (atRing 0 b settled)
    let d := s.dev.taken 0
    (s.running = true ∧ (s.dev.skim 0).front 0 = some { index := 5, desc := some b } ∧ Dsc.op b = 0x41 ∧ Dsc.headOk b = true
      ∧ zeroAt b 28 4 = true ∧ zeroAt b 40 24 = true ∧ Dsc.length b ≤ 0x10000000 ∧ d.stagingOk = true
      ∧ (match checkPlat d d.station true (slice container 0 (Dsc.length b)) (Dsc.length b) with | .ok p => p.kind == 2 | _ => false) = true)
    ∧ up.mayWrite .host PLT = true ∧ up.dev.plt.staged = none
    ∧ (let s := has { up.dev with regs := [(PLT, 6)], plt := { staged := some ({}, none) } }
       s.dev.rbit PLT 2 = true ∧ s.dev.plt.staged = some ({}, none) ∧ s.dev.plt.seating = false ∧ s.dev.rbit PHT 31 = false
       ∧ s.mayWrite .host PLT = true)
    ∧ (let s := has { up.dev with plt := { incoming := some ({}, none), seating := true, opening := [(0, none), (1301, some default)] } }
       s.running = true ∧ s.dev.plt.incoming = some ({}, none) ∧ s.dev.plt.seating = true ∧ s.dev.anyRunning = false
       ∧ tfind s.dev.plt.opening 0 = some none ∧ tfind s.dev.plt.opening 1301 = some (some default) ∧ (s.dev.seat 0).slots = []) := by
  decide +kernel

/-! Schedulers -/

/-- A packet of a new task for quadrant q, to any seat of a role. -/
def aPkt (q role opcount : Nat) : Arrival := { pkt := mkPkt q role 0 0xFFFF 5 opcount (opcount - 1) 3 9 0x1000 0 0, sender := 0xFFFF }

theorem witness_TaskPackets :
    (([1, 4] : List Nat).all (fun n =>
        let a := aPkt 7 15 n
        let d : Dev := { up.dev with quads := [(7, { inbound := [(3, a)] })] }
        (has d).running && (d.quad 7).held.isEmpty && a.refused.isNone && a.origin.isNone && pktOwn 7 a.pkt && d.pktFresh a.pkt && !Pkt.direct a.pkt
          && (d.quad 7).tasks.isEmpty && (d.quad 7).occ == 0 && decide ((d.quad 7).occ + d.rf (qdrReg 7 8) 12 0 < 4096)) = true)
    -- a held packet that goes in, behind one that stays because port 0 keeps entries back, and one that stays alone
    ∧ (let s (r : List (Nat × Word)) : Dev := { up.dev with quads := [(0, { held := [(0, aPkt 0 1 1), (2, aPkt 0 1 1)] })], regs := r }
       let r (d : Dev) (port : Nat) : Bool := ((d.accrue 0).takeIn 0 port (aPkt 0 1 1)).2
       ((s []).quad 0).held = [(0, aPkt 0 1 1)] ++ (2, aPkt 0 1 1) :: [] ∧ r (s []) 2 = false ∧ r (s [(qdrReg 0 8, 4096)]) 0 = true)
    -- own fields broken; a seat of another epoch
    ∧ pktOwn 0 (aPkt 0 0 1).pkt = false ∧ denseSeat (Pkt.seat (aPkt 0 0 1).pkt) = none ∧ (aPkt 0 0 1).pkt.length = 32
    ∧ (let p := mkPkt 0 1 2 0 0 1 0 0 0 0 0 0
       pktOwn 0 p = true ∧ up.dev.pktFresh p = false ∧ denseSeat (Pkt.seat p) = some 0 ∧ p.length = 32)
    ∧ (up.dev.quad 0).laf.length < 1024 := by decide +kernel

theorem witness_Dispatch :
    let t (p : Nat) : Task := { uid := 1, idx := some 0, role := 1, phase := .ready p 0 }
    let d (drill : Nat) (p : Nat) : Dev :=
      { up.dev with regs := [(qdrReg 0 0, 3), (qdrReg 0 0xC, 1)], quads := [(0, { tasks := [t p], extra := 256 })]
                    seats := [(0, { role := 1, opened := true, drill })] }
    (has (d 0xFFFF 0)).running = true ∧ (d 0xFFFF 0).rbit (qdrReg 0 0) 0 = true ∧ (d 0xFFFF 0).flt.stage = 0 ∧ (d 0xFFFF 0).plt.seating = false
    ∧ (let x := (d 0xFFFF 0).quad 0
       let e := ((d 0xFFFF 0).setQuad 0 { x with extra := x.extra + 1 }).accrue 0
       readyOrder (e.quad 0) (e.cyc 0) = [t 0] ∧ laneBusy (e.quad 0) (t 0) = false ∧ (quadSeats 0).filter (e.qualifies 0 (t 0)) = [0])
    -- no seat to choose: of its role there is one that is closed, or none
    ∧ (let n (r : Nat) : Dev := { d 0xFFFF 0 with seats := [(0, { role := r })] }
       (n 1).chooseSeat 0 (t 0) = none ∧ (n 2).chooseSeat 0 (t 0) = none ∧ (n 1).roleHeld 0 (t 0) = true ∧ (n 2).roleHeld 0 (t 0) = false)
    ∧ (d 0xFFFF 0).task 0 1 = some (t 0) ∧ ((d 0xFFFF 0).seat 0).drill = 0xFFFF
    ∧ ((d 2 0).seat 0).drill ≠ 0xFFFF ∧ (d 2 0).task 0 1 = some (t 0) ∧ seatTutor 0 = some 0
    -- priority 6 after exactly 256 cycles
    ∧ (d 2 6).rbit (qdrReg 0 0) 1 = true ∧ t 6 ∈ ((d 2 6).quad 0).tasks
    ∧ max 1 ((d 2 6).rf (qdrReg 0 0xC) 15 0) * 256 ≤ (d 2 6).cyc 0 - 0 := by decide +kernel
/-- With one seat that qualifies, the rotation chooses it wherever it stands. -/
theorem witness_Dispatch_seat (d : Dev) (q : Nat) (t : Task) (n : Nat) (h : (quadSeats q).filter (d.qualifies q t) = [n]) :
    d.chooseSeat q t = some n := by
  unfold Dev.chooseSeat; rw [h]; simp only [List.find?, List.head?]; split <;> split at * <;> simp_all

theorem witness_TaskEnds :
    let t : Task := { uid := 1, idx := some 0, role := 1, phase := .worked }
    let u : Task := { t with phase := .finished, idx := none }
    (has (atSeat 1301 t [])).running = true ∧ (atSeat 1301 t []).running 1301 = some (0, t)
    ∧ nextRelease [] [u] = some u ∧ u.results = [] ∧ u.enc = none
    ∧ (let d : Dev := { up.dev with quads := [(7, { laf := [zeros 64] })], regs := [(qdrReg 7 0, 4), (qdrReg 7 0x10, 9), (rngReg 9 0, 0xC6000000)] }
       (d.quad 7).laf = [zeros 64] ∧ d.rbit (qdrReg 7 0) 2 = true ∧ d.rf (qdrReg 7 0x10) 13 0 = 9 ∧ d.ringEn 9 = true
       ∧ d.ringKind 9 = 2 ∧ d.ringFull 9 = false ∧ d.rbit (rngReg 9 0) 23 = false) := by decide +kernel

/-! Rings and the host link -/

theorem witness_RingControl :
    let ok (r : List (Nat × Word)) (n : Nat) (v : Nat) : Bool :=
      let d := (regs r).dev
      let kind := if n ≤ 2 then d.ringKind n else bits v 30 29
      decide (kind ≠ 3) && decide (4 ≤ bits v 28 24) && decide (bits v 28 24 ≤ 20)
        && d.rn2 (rngReg n 8) % max 4096 (2 ^ bits v 28 24 * (if kind = 1 then 16 else 64)) == 0 && (n != 0 || d.ringEn 1)
    let en : RingIx → Bool := fun n => up.mayWrite .host (rngReg n.val 0)
    (en 0 && en 16383) = true ∧ up.dev.rbit (rngReg 16383 0) 31 = false ∧ (regs [(rngReg 5 0, 0x80000000)]).dev.rbit (rngReg 5 0) 31 = true
    -- every kind; both ends of LOG2_SIZE; a base off its boundary; ring 0 with ring 1 on and off
    ∧ (([0x84000000, 0x94000000, 0xA4000000, 0xD4000000] : List Nat).all (ok [] 16383) = true)
    ∧ (([0x83000000, 0x95000000, 0xE4000000] : List Nat).all (fun v => !ok [] 16383 v) = true)
    ∧ ok [(rngReg 5 8, 2048)] 5 0x84000000 = false
    ∧ ok [] 0 0x84000000 = false ∧ ok [(rngReg 1 0, 0xA4000000)] 0 0x84000000 = true := by decide +kernel

theorem witness_DoorbellsAndFetch :
    let sub := regs [(rngReg 5 0, 0x84000000), (rngReg 5 0x10, 0), (rngReg 5 0x14, 1)]
    let cpl := regs [(rngReg 5 0, 0xA4000000), (rngReg 5 0x10, 0), (rngReg 5 0x14, 1)]
    let past (a b : Nat) : Nat := (a + 2 ^ 32 - b) % 2 ^ 32
    sub.hostUp = true ∧ (0x5000#26).toNat % 4096 = 0 ∧ (0x5000#26).toNat / 4096 = 5
    ∧ sub.dev.ringEn 5 = true ∧ sub.dev.ringKind 5 = 0 ∧ cpl.dev.ringKind 5 = 1
    -- 16 waiting and 17 waiting; HEAD at TAIL and past it
    ∧ (past 16 0 ≤ 2 ^ sub.dev.ringLog 5 ∧ past 16 (sub.dev.ringTail 5) ≤ 2 ^ sub.dev.ringLog 5) ∧ ¬ past 17 0 ≤ 2 ^ sub.dev.ringLog 5
    ∧ past 1 (cpl.dev.ringHead 5) ≤ past (cpl.dev.ringTail 5) (cpl.dev.ringHead 5)
    ∧ ¬ past 2 (cpl.dev.ringHead 5) ≤ past (cpl.dev.ringTail 5) (cpl.dev.ringHead 5) ∧ up.dev.ringEn 5 = false
    ∧ (let f := has { sub.dev with plt := { ringMap := [{ ring := 5, quad := 0, pri := 0, lane := 0, role := 1, slot := 0, cplRing := 1
                                                          channel := 0xFF, privileged := false }] } }
       f.dev.fetchRing = some 5 ∧ (f.dev.ring 5).fetched = [] ∧ f.dev.ringUsed 5 = 1 ∧ (dsc 2).length = 64
       ∧ f.dev.earlyBad 5 { index := 0, desc := some (dsc 2) } = none) := by decide +kernel

/-- A ring map entry of ring 5, and two allocations: slate 0 and slate 1. -/
def mapped : Dev :=
  { settled with plt := {
    seated := true
    ringMap := [{ ring := 5, quad := 7, pri := 7, lane := 1023, role := 15, slot := 3, cplRing := 9, channel := 0xFF, privileged := false }]
    allocs := [{ id := 1, kind := 1, iset := 0, flags := 8, base := SLATE, size := 0x1000, unit := 0, owner := 0xFFFF, fromPlat := false },
               { id := 2, kind := 1, iset := 0, flags := 8, base := SLATE + 0x100000, size := 0x1000, unit := 1, owner := 0xFFFF }] } }
/-- A compression job's descriptor. -/
def aJob : Bytes := patch (dsc 4) 16 (leB 4 1 ++ leB 4 64 ++ leB 8 0 ++ leB 4 2 ++ leB 4 64)

theorem witness_MappedRingDescriptors :
    let at_ (b : Bytes) : State := has (atRing 5 b mapped)
    let front (b : Bytes) (op : Nat) : Bool := (at_ b).running && ((at_ b).dev.skim 5).front 5 == some { index := 5, desc := some b } && Dsc.op b == op
    let m := ((at_ []).dev.taken 5).ringMapOf 5
    let ok (b : Bytes) (u : Bool) : Option Nat := match ((at_ b).dev.taken 5).dataChecks b u with | .ok a => some a | _ => none
    m.isSome = true ∧ 16 ≤ (m.map RingMap.channel).getD 0
    -- up to the last byte of the allocation
    ∧ front (dsc 1 0x4000 16 1 0xFF0 7) 1 = true ∧ ok (dsc 1 0x4000 16 1 0xFF0 7) (zeroAt (dsc 1 0x4000 16 1 0xFF0 7) 44 20) = some (SLATE + 0xFF0)
    ∧ Dsc.length (dsc 1 0x4000 16 1 0xFF0 7) ≠ 0
    ∧ front (dsc 2 0 0x1000 1) 2 = true ∧ ok (dsc 2 0 0x1000 1) (zeroAt (dsc 2 0 0x1000 1) 16 8 && zeroAt (dsc 2 0 0x1000 1) 44 20) = some SLATE
    ∧ front (dsc 3 0x4000 0x1000) 3 = true ∧ Dsc.headOk (dsc 3 0x4000 0x1000) = true ∧ zeroAt (dsc 3 0x4000 0x1000) 28 36 = true
    ∧ Dsc.length (dsc 3 0x4000 0x1000) ≠ 2 ^ 32 - 1
    ∧ front aJob 4 = true ∧ Dsc.headOk aJob = true ∧ ((at_ aJob).dev.taken 5).jobChecks aJob = none
    ∧ ((at_ aJob).dev.taken 5).rf (qdrReg 7 8) 12 0 < 4096 - (((at_ aJob).dev.taken 5).quad 7).occ
    ∧ ((at_ aJob).dev.taken 5).ringUnderway 7 5 = false
    ∧ ¬ (regs [(qdrReg 7 8, 4096)]).dev.rf (qdrReg 7 8) 12 0 < 4096 - ((regs [(qdrReg 7 8, 4096)]).dev.quad 7).occ
    -- the ring of channel 3: samples, and a column that its descriptors do not name
    ∧ (let e : Dev := { mapped with
         ichs := [(3, { params := zeros 64, quad := 7 })]
         plt := { mapped.plt with ringMap := mapped.plt.ringMap.map (fun m => { m with channel := 3, role := 1, slot := 0 }) } }
       let use (arg : Nat) : Option ChanUse :=
         (e.ringMapOf 5).map (fun m => e.chanUse (originOf 5 { index := 5, desc := none }) m (dsc 1 0x4000 16 1 0xFF0 arg))
       use 0 = some .data ∧ use 7 = some .bad) := by decide +kernel

/-- Descriptors of ring 0 by what stands from byte 16 on. -/
def adm (op : Nat) (rest : Bytes) : Bytes := patch (dsc op) 16 rest
/-- Ring 0 at a descriptor whose header is sound and whose unused bytes are zero. -/
def adminReady (op used : Nat) (b : Bytes) (d : Dev := mapped) : Bool :=
  let s := has (atRing 0 b d)
  s.running && (s.dev.skim 0).front 0 == some { index := 5, desc := some b } && Dsc.op b == op && Dsc.headOk b && zeroAt b used (64 - used)
/-- A record of 64 bytes on slate 2, its ID and flags. -/
def aRecord (id flags : Nat) : Bytes := leB 4 id ++ leB 1 1 ++ leB 1 0 ++ leB 2 flags ++ leB 8 (SLATE + 0x200000) ++ leB 8 64 ++ leB 2 2 ++ leB 2 0xFFFF ++ zeros 4
/-- A tensor job on allocation 1: UINT8, one dimension of 16. -/
def aTensor : Bytes :=
  leB 4 1 ++ leB 1 1 ++ leB 1 1 ++ zeros 42 ++ leB 4 16 ++ zeros 4 ++ leB 8 1
    ++ (List.range 4).flatMap (fun _ => leB 4 1 ++ zeros 12)
def aTDesc : TDesc :=
  { job := 0, alloc := 2, base := SLATE, etype := 1, rank := 1, axis := 0, write := true, scaled := false, offset := 0, scaleOfs := 0, pad := 0
    size := [16, 1, 1, 1, 1], stride := [1, 0, 0, 0, 0], origin := [0, 0, 0, 0, 0], extent := [16, 1, 1, 1, 1]
    padLo := [0, 0, 0, 0, 0], padHi := [0, 0, 0, 0, 0], others := [] }
/-- With a fragment and a tensor descriptor. -/
def staged : Dev := { mapped with plt := { mapped.plt with frags := [(3, { kind := 1, fragId := 3 })] }, tds := [(65535, aTDesc)], tdGen := [(65535, 9)] }

theorem witness_RingZeroCommands :
    let took (b : Bytes) (d : Dev := mapped) : Dev := (atRing 0 b d).taken 0
    adminReady 0x40 16 (dsc 0x40) = true
    -- a record with and without clearing
    ∧ (([0, 4] : List Nat).all (fun f => adminReady 0x42 48 (adm 0x42 (aRecord 7 f)) && ((took (adm 0x42 (aRecord 7 f))).recordBad (aRecord 7 f)).isNone) = true)
    ∧ adminReady 0x43 20 (adm 0x43 (leB 4 1)) = true
    ∧ (let d := took (adm 0x43 (leB 4 1))
       d.ringNames (d.plt.allocs.headD default) = false ∧ d.ownerBusy (d.plt.allocs.headD default) = false ∧ d.tds = []
       ∧ (d.alloc 1).map Alloc.fromPlat = some false)
    ∧ adminReady 0x44 28 (dsc 0x44 0x4000 128) = true ∧ slice aTensor 0 (Dsc.length (dsc 0x44 0x4000 128)) = aTensor
    ∧ jobAllOnes aTensor = false
    ∧ (match (took (dsc 0x44)).alloc (fld aTensor 0 4) with
       | some a => (match (took (dsc 0x44)).tdCheck aTensor 128 a with | .ok _ => true | _ => false)
       | none => false) = true
    ∧ adminReady 0x45 20 (adm 0x45 (leB 4 (9 * 65536 + 65535))) staged = true ∧ staged.tdNamed (9 * 65536 + 65535) = true
    ∧ (([0x46, 0x47] : List Nat).all (fun op => adminReady op 18 (adm op (leB 2 3)) staged) = true)
    ∧ (tfind staged.plt.frags 3).isSome = true ∧ staged.plt.armed = []
    ∧ adminReady 0x48 48 (adm 0x48 (aPkt 7 15 1).pkt) = true ∧ Pkt.length (aPkt 7 15 1).pkt ≠ 2 ^ 32 - 1 ∧ Pkt.opcount (aPkt 7 15 1).pkt ≠ 7
    ∧ adminReady 0x49 26 (adm 0x49 (leB 1 3 ++ leB 1 7 ++ leB 2 0xFFFF ++ leB 6 9)) = true
    ∧ bits (fld (adm 0x49 (leB 1 3 ++ leB 1 7)) 17 1) 7 3 = 0 ∧ fld (adm 0x49 (leB 1 3 ++ leB 1 7)) 16 1 ≤ 3 := by decide +kernel

theorem witness_RingZeroEnds :
    let bad (b : Bytes) : Bool := (has (atRing 0 b mapped)).running && ((atRing 0 b mapped).skim 0).front 0 == some { index := 5, desc := some b }
      && Dsc.op b == 0x40
    -- a reserved flag; a byte that is not zero, the last
    bad (patch (dsc 0x40) 1 [4]) = true ∧ Dsc.headOk (patch (dsc 0x40) 1 [4]) = false
    ∧ bad (patch (dsc 0x40) 63 [1]) = true ∧ zeroAt (patch (dsc 0x40) 63 [1]) 16 48 = false
    ∧ adminReady 0x43 20 (adm 0x43 (leB 4 3)) = true ∧ mapped.alloc 3 = none
    ∧ adminReady 0x45 20 (adm 0x45 (leB 4 65535)) staged = true ∧ staged.tdNamed 65535 = false
    ∧ adminReady 0x46 18 (adm 0x46 (leB 2 4)) staged = true ∧ tfind staged.plt.frags 4 = none
    ∧ (originOf 0 { index := 5, desc := some (dsc 0x40) }).ring = 0 := by decide +kernel

theorem witness_HostLink :
    let o : Origin := { ring := 5, index := 5, user := 0, irq := true, op := 3 }
    let c : Cpl := { ring := 9, lane := none, origin := o, status := .ok, detail := 0, result := 0 }
    let x : Delivery := { ring := 9, stream := none, status := .ok, head := zeros 8, addr := 0x1000, length := 24, tail := zeros 32 }
    let s (ctl tail st : Word) (h : HostSt) : State := has { up.dev with regs := [(rngReg 9 0, ctl), (rngReg 9 4, st), (rngReg 9 0x14, tail)], host := h }
    let a := s 0xA4000000 0 0 { cpls := [c], deliveries := [x], rings := [(9, { buffers := [(o, 0x5000, 64)] })] }
    a.running = true ∧ nextCpl 9 [] a.dev.host.cpls = some c ∧ a.dev.ringEn 9 = true ∧ a.dev.ringKind 9 = 1 ∧ a.dev.ringFull 9 = false
    ∧ a.dev.rbit (rngReg 9 0) 23 = false
    -- a full ring
    ∧ (s 0xA4000000 16 8 { cpls := [c] }).dev.ringFull 9 = true ∧ (s 0xA4000000 16 8 {}).dev.rbit (rngReg 9 4) 3 = true
    ∧ (let e : EvItem := { ring := 9, waits := false, body := zeros 64 }
       (s 0xC4000000 0 0 { events := [e] }).dev.host.events.find? (fun x => x.ring == 9) = some e ∧ (s 0xC4000000 0 0 {}).dev.ringKind 9 = 2
       ∧ (s 0xC4000000 0 0 {}).dev.ringFull 9 = false)
    -- a timer that runs out in this cycle
    ∧ (let t := has { up.dev with regs := [(rngReg 9 0, 0x848007FF), (rngReg 9 0x18, 0x10000)], now := 256, host := { rings := [(9, { irqCount := 1 })] } }
       t.dev.rbit (rngReg 9 0) 23 = true ∧ t.dev.rf (rngReg 9 0x18) 31 16 = 1 ∧ (t.dev.ring 9).irqCount ≠ 0
       ∧ (t.dev.ring 9).irqSince + t.dev.rf (rngReg 9 0x18) 31 16 * 256 ≤ t.dev.now ∧ ¬ t.dev.rf (rngReg 9 0) 10 0 ∈ t.dev.host.masked)
    ∧ (let m := has { up.dev with host := { masked := [2047], pendingIrq := [2047] } }
       m.hostUp = true ∧ (2047#11).toNat ∈ m.dev.host.masked ∧ (2047#11).toNat ∈ m.dev.host.pendingIrq)
    -- a delivery that fills its buffer to the last byte
    ∧ a.dev.host.deliveries.find? (fun x => x.ring == 9) = some x ∧ (a.dev.ring 9).buffers = [(o, 0x5000, 64)] ∧ o.ring ≠ 9
    ∧ x.head.length + x.length + x.tail.length = 64
    ∧ ({ x with length := 25 } : Delivery).head.length + 25 + x.tail.length = 65
    ∧ up.care.perstLow = false
    ∧ (let b : State := { State.reset with care := { power := .good, run := { stage := 5, linksDone := true } } }
       b.running = true ∧ b.care.run.stage = 5 ∧ b.care.run.linksDone = true ∧ b.dev.ringEn 0 = false) := by decide +kernel

/-! Seat work -/

theorem witness_ColumnAndJoinTasks_columns :
    (([2, 3, 4, 5] : List Nat).all (fun role =>
      let t := job 0 role (pars 0 []) noRows
      let d := working 0 t noRows
      t.tag != BitVec.allOnes 48 && !d.normWaits (colOps t.params) t.tag && (colOps t.params).isEmpty
        && works 0 t noRows role 16384
        && (match d.inputBatch t.params noRows with
            | some b => (match colRun d t.params t.tag [] b {} with | (_, some o) => o.bytes.length ≤ 16384 | _ => false)
            | none => false)
        && (d.inputBatch t.params (zeros 3)).isNone && works 0 (job 0 role (pars 0 []) (zeros 3)) (zeros 3) role 0) = true) := by decide +kernel

/-- An operand batch with one INT32 key. -/
def keys : DBatch := batch 1 [mkCol 0 3 0 4 [] [some (leB 4 7)] []]

theorem witness_ColumnAndJoinTasks_joins :
    (([0, 1] : List Nat).all (fun mode =>
      let t := job 0 6 (pars 1 (anOp 0x40 mode 0 0xFFFF 0)) [] 0 9
      let d := working 0 t []
      (has d).running && d.atWork 0 6 == some (0, t) && !d.laneBefore 0 t && !d.buildWaits 0 9
        && (match codeOps 0x40 (colOps t.params) with | [(o, _)] => o.mode == mode && joinId o == 0 | _ => false)
        && !(d.joinTab 0 0).sealed_ && !(d.joinTab 0 9).broken && ((t.operand 0).map Pkt.length).getD 0 == 0) = true)
    ∧ 0 < (working 0 (job 0 6 [] []) []).partRoom (([2] : List Nat).getD 0 0) true 16
    ∧ (let t := job 0 7 (pars 1 (anOp 0x41 0 0 0xFFFF 0xFFFF (leB 4 1 ++ zeros 16))) keys.bytes 0 9
       let row : JoinRow := { part := 0, key := (7, []), time := 0, carried := [] }
       let d := { working 0 t keys.bytes with joins := [(0, { tabs := [(9, { rows := [row], sealed_ := true })] })] }
       d.atWork 0 7 = some (0, t) ∧ (d.operandData t 0).2 = some keys.bytes ∧ d.buildSealed 0 9 true = true ∧ d.joinPerTag 0 = true
       ∧ (match codeOps 0x41 (colOps t.params), d.inputBatch t.params keys.bytes with
          | [(o, _)], some b => (match b.col o.inA with
            | some c => o.mode % 4 == 0 && c.flat b.samples && c.numeric && rowKeys b c o.workExp == [some (7, [])]
                && (match probeOut b o (d.join 0).shape [[[]]] with | some ([x], _) => d.hasSlot t.params x.bytes.length | _ => false)
            | none => false)
          | _, _ => false) = true ∧ (d.joinTab 0 9).broken = false) := by decide +kernel

theorem witness_SequenceTasks :
    let b0 := batch 1 [mkCol 0 3 0 4 [] [some (leB 4 7)] [], mkCol 1 8 0 8 [] [some (leB 8 5)] []]
    let t := job 0 8 (pars 1 (anOp 0x60 0 0 1 0 (leB 4 1 ++ zeros 8 ++ leB 8 1))) b0.bytes 0 9
    let d := working 0 t b0.bytes
    works 0 t b0.bytes 8 64 = true ∧ d.laneBefore 0 t = false ∧ tget {} d.seqs (seqKey (fld t.params 16 4) 0) = {}
    ∧ (match codeOps 0x60 (colOps t.params), d.inputBatch t.params b0.bytes with
       | [(o, cs)], some b => b.samples == 1 && b.valid.getD 0 false && bits o.p0 22 0 == 1 && Machine.tc 64 o.p2 == 1 && carryOk b cs
          && (match b.col o.inA, b.col o.inB with
              | some kc, some tc => kc.flat 1 && kc.numeric && tc.flat 1 && tc.type == 8 && (kc.work 1 o.workExp 0).isSome && (tc.val 1 0).isSome
                  && (seqBytes 7 9 1 false false (seqRB b (seqOrder cs)) [{ time := 5, ord := 0, carried := [] }]).length ≤ 64
              | _, _ => false)
       | _, _ => false) = true := by decide +kernel

theorem witness_SelectionTasks :
    let b0 := batch 1 [mkCol 0 3 1 4 [[0, 2]] [some (leB 4 7), some (leB 4 9)] []]
    (([1, 64] : List Nat).all (fun k =>
      let t := job 0 10 (pars 1 [] ++ zeros 0 |>.take 16 |> (· ++ (leB 1 0x70 ++ leB 1 4 ++ leB 2 0 ++ leB 2 1 ++ leB 1 k ++ zeros 41))) b0.bytes
      let o := selOp t.params 0
      works 0 t b0.bytes 10 4096 && t.arg == 0 && 0 < fld t.params 0 2 && o.op == 0x70 && o.inp != 0xFFFF && o.k == k && o.idx64
        && (match (working 0 t b0.bytes).readBatch b0.bytes with
            | some b => (match b.col o.inp with | some c => c.depth == 1 && isInt c.type | none => false) && (b.col o.out).isNone
            | none => false)) = true) := by decide +kernel

/-- A tensor of 1 × 1 INT8 elements. -/
def dot (base : Nat) : TDesc :=
  { job := 0, alloc := 2, base, etype := 1, rank := 2, axis := 0, write := true, scaled := false, offset := 0, scaleOfs := 0, pad := 0
    size := [1, 1, 1, 1, 1], stride := [1, 1, 0, 0, 0], origin := [0, 0, 0, 0, 0], extent := [1, 1, 1, 1, 1]
    padLo := [0, 0, 0, 0, 0], padHi := [0, 0, 0, 0, 0], others := [] }

theorem witness_TensorTasks :
    let tds : Tbl TDesc := [(0, dot 0x200000), (1, dot 0x200001)]
    -- one record: 0 to 1, the dimensions as they are
    (let raw := leB 4 0 ++ leB 4 1 ++ leB 2 0x4688 ++ zeros 22
     let t := job 0 9 (pars 0 []) raw (2 ^ 31)
     let d := { working 0 t raw with tds }
     let m := moveRec raw
     d.running 0 = some (0, t) ∧ t.phase = .seated_ ∧ t.arg = 2 ^ 31 ∧ ((t.operand 0).map Pkt.length).getD 0 = 32
     ∧ (d.operandData t 0).2 = some raw ∧ d.tdesc m.src (0, 1) = some (dot 0x200000) ∧ d.tdesc m.dst (0, 1) = some (dot 0x200001)
     ∧ moveOk m (dot 0x200000) (dot 0x200001) (fld raw 10 2) = true
     ∧ (d.touchAll (moveReads m (dot 0x200000) (dot 0x200001))).2 = false)
    -- a 1 × 1 × 1 product
    ∧ (let p := (pars 1 []).take 16 ++ (leB 4 0 ++ leB 4 0 ++ leB 1 0xFF ++ leB 1 0xFF ++ leB 1 0 ++ leB 1 0 ++ leB 4 0 ++ leB 4 1 ++ leB 4 1 ++ leB 4 1 ++ zeros 4)
          ++ (leB 4 1 ++ leB 1 0 ++ leB 1 1 ++ zeros 26)
       let t := job 0 9 p []
       let d := { working 0 t [] with tds }
       d.mxNext 0 = some (0, t) ∧ t.role = 9 ∧ bit t.arg 31 = false ∧ (d.mxSt 0).banks = []
       ∧ (match d.mxJob 0 t, d.alloc 2 with
          | some j, some a => j.a.inside a.size && j.b.inside a.size && j.a.desc.alloc == 2 && j.b.desc.alloc == 2
              && !(d.touchAll (j.a.reads j.rowA j.bank.rows j.k ++ j.b.reads j.rowB j.bank.cols j.k)).2
          | _, _ => false) = true
       ∧ (match d.mxJob 0 t with
          | some j => let e := { d with mx := [(0, { banks := [j.bank] })] }
                      (e.mxSt 0).banks == [j.bank] && e.task j.bank.q j.bank.uid == some t
          | none => false) = true)
    ∧ (dot 0).scaled = false := by decide +kernel

/-- A table of four rows of 16 INT8 elements in allocation 2, with or without SHARDED, and one unweighted pool of column 0. -/
def embed (flags : Nat) : Bytes :=
  patch (pars 1 []) 2 (leB 2 1) ++ patch (zeros 64) 2 (leB 1 1 ++ leB 1 flags ++ leB 2 16 ++ zeros 2 ++ leB 8 4 ++ leB 8 4 ++ leB 4 2 ++ zeros 2
      ++ leB 2 1 ++ leB 4 128)
    ++ (zeros 1 ++ leB 1 1 ++ leB 2 0 ++ leB 2 0xFFFF ++ leB 2 5 ++ leB 2 0xFFFF ++ leB 1 1 ++ zeros 21) ++ leB 2 1
theorem witness_Gathers :
    let b0 := (batch 1 [mkCol 0 3 0 4 [] [some (leB 4 3)] []]).bytes
    (let t := job 1152 12 (embed 0) b0
     let d := working 1152 t b0
     works 1152 t b0 12 4096 = true ∧ d.emb.due = [] ∧ tfind d.emb.gathers 0 = none
     ∧ (match embPools t.params, d.readBatch b0 with
        | [p], some b => decide ((b.cols.map (·.idx) ++ [p.out]).Nodup) && p.emptyOut == 0xFFFF
            && (match bagPositions b p with
                | some ps => ps.length == 1 && (d.asks 0 b.valid [(0, p, ps)]).isEmpty
                    && (let r := d.fetchPool 0 0 false [] b.valid 0 p ps
                        r.2.length == 1 && r.2.all (fun g => g.2 != .unreachable && g.2 != .poisoned)
                          && r.1.hasSlot t.params (DBatch.bytes { b with cols := b.cols ++ (poolColumns b p ps r.2).1 }).length)
                | none => false)
        | _, _ => false) = true)
    ∧ (let t := job 1223 12 (embed 1) b0
       let d := fabricOn (working 1223 t b0)
       d.atWork 1223 12 = some (0, t) ∧ (d.operandData t 0).2 = some b0
       ∧ (match embPools t.params, d.readBatch b0 with
          | [p], some b => (match bagPositions b p with
              | some ps => let r := sendAsks 71 0 (d.asks 71 b.valid [(0, p, ps)]) d []
                           r.2.2 && !r.2.1.isEmpty
              | none => false)
          | _, _ => false) = true)
    ∧ (let m : Msg := { port := 0, src := 1, gen := 0, await_ := false, cls := 2, tc := 0, ackReq := false, id := 9, len := 16, data := zeros 16 }
       let d : Dev := { up.dev with fab := { inbox := [m, { m with cls := 1 }], waits := [(9, .read 71, 0)] }
                                    emb := { gathers := [(71, { q := 0, uid := 1, asks := [{ msg := 9, table := 0, pool := 0, window := 0, row := 3 }] })] } }
       d.fab.inbox.find? (fun m => m.cls == 2) = some m ∧ d.fab.waits.find? (fun w => w.1 == m.id) = some (m.id, .read 71, 0)
       ∧ (tfind d.emb.gathers 71).isSome = true
       ∧ d.fab.inbox.find? (fun m => m.cls == 1 && fld m.data 2 6 ≤ d.step && !d.emb.due.any (fun u => u.table == fld m.data 0 2))
           = some { m with cls := 1 }
       ∧ d.table (fld m.data 0 2) = none ∧ d.sendable m.src = none) := by decide +kernel

theorem witness_UpdatesAndReplicas :
    let raw := leB 2 0 ++ leB 1 1 ++ leB 1 1 ++ leB 4 1 ++ zeros 24 ++ zeros 144
    (let t := job 1152 13 (embed 0) raw
     let d := working 1152 t raw
     d.atWork 1152 13 = some (0, t) ∧ t.acks = [] ∧ (d.operandData t 0).2 = some raw
     ∧ (match (embTables t.params).find? (fun x => x.id == fld raw 0 2) with
        | some tb => raw.length == 32 + fld raw 4 4 * (16 + 8 * tb.dim) && tb.updAlloc == 0
        | none => false) = true
     ∧ fld raw 3 1 = 1 ∧ zeroAt raw 8 24 = true)
    ∧ (let u : UpdDue := { table := 0, tag := 3, atStep := 4 }
       let s := has { up.dev with emb := { due := [u], refresh := [(255, [])] }
                                  plt := { seats := [{ seat := 0x2000, role := 13, pri := 0, drill := 0xFFFF, subst := 0xFFFF, params := embed 0 }] } }
       s.dev.emb.due.find? (fun u => u.table == 0) = some u ∧ (s.dev.table 0).isSome = true ∧ s.dev.readsLeft u = false)
    ∧ tfind (has { up.dev with emb := { refresh := [(255, [])] } }).dev.emb.refresh 255 = some []
    ∧ (([0, 71] : List Nat).all (fun c => up.mayWrite .host (cluReg c 0x400) && (regs [(cluReg c 0x400, 1)]).dev.rbit (cluReg c 0x400) 0) = true)
    ∧ maskedBit 0x10000 0 false ∧ ¬ maskedBit 0x10000 1 true := by
  unfold maskedBit; decide +kernel

/-! Intake, streams, ports -/

theorem witness_Intake :
    let p0 := zeros 64
    -- a task of no bytes at the last tile, while the channel is enabled
    (let t := job 1151 1 p0 []
     let d : Dev := { atSeat 1151 t [] with regs := [(ichReg 0 0, 0x80000000)], ichs := [(0, { params := p0 })] }
     d.atWork 1151 1 = some (0, t) ∧ d.rbit (ichReg 0 0) 31 = true ∧ d.laneBefore 0 t = false ∧ (d.ich 0).work = none
     ∧ (match ((d.beginDecode 0 t).ich 0).work with
        | some w => w.toExpand.isEmpty && w.inPipe == 0 && (let r := placeItems 0 1151 w.items (d.beginDecode 0 t) w.results; r.1.isEmpty && r.2.1.cacheMode 0 != 2)
        | none => false) = true ∧ bit t.arg 30 = false)
    -- a ticket whose last bell has come
    ∧ (let k : Ticket := { ticket := 0xFFFFFF, serial := 5, bells := 1 }
       let o : Origin := { ring := 5, index := 5, serial := 5, user := 0, irq := false, op := 1 }
       let t : Task := { uid := 1, idx := some 0, role := 1, lane := 3, opcount := 2, slots := [(0, { pkt := (aPkt 0 1 1).pkt, sender := 0xFFFF, origin := some o })] }
       let d : Dev := { up.dev with
         regs := [(ichReg 15 0x30, 0)], ichs := [(15, { params := p0, tickets := [k] })], quads := [(0, { tasks := [t] })]
         plt := { ringMap := [{ ring := 5, quad := 0, pri := 0, lane := 3, role := 1, slot := 0, cplRing := 1, channel := 15, privileged := true }] } }
       (d.ich 15).tickets.find? (fun k => k.ticket == 0xFFFFFF) = some k ∧ max 1 (d.rf (ichReg 15 0x30) 7 0) ≤ k.bells
       ∧ (d.ichRing 15).isSome = true ∧ d.ticketTask 15 k = some t)
    -- a front window with a batch, and a back window that may come forward
    ∧ (let b : WinBatch := { term := 0, slot := 0x100000, length := 64, tag := 9, corrupt := false, subst := false, samples := 1, last := false }
       let d (x : IchSt) : Dev := { up.dev with
         regs := [(ichReg 0 0, 0xA0000000)], ichs := [(0, { x with params := p0, sealed_ := true })]
         plt := { seats := [{ seat := 0, role := 1, pri := 0, drill := 0xFFFF, subst := 0xFFFF, params := p0 }] } }
       let f := (d { front := [b] }).refill 0
       let w := (d { back := [{ b with last := true }], armed := true }).refill 0
       (f.ich 0).front = [b] ∧ f.ichSeat 0 = some 0 ∧ f.rbit (ichReg 0 0) 31 = true ∧ b.last = false
       ∧ w.replaying 0 = true ∧ w.swapArmed 0 = true ∧ (w.ich 0).front = [] ∧ (w.ich 0).back ≠ [] ∧ (w.ich 0).cached.length ≤ (w.ich 0).pos)
    ∧ up.mayWrite .host (ichReg 15 0x54) = true ∧ (has { up.dev with ichs := [(15, { params := p0 })] }).dev.ichs ≠ [] := by decide +kernel

/-- An Ethernet frame from 4 to a MAC address, of an EtherType, padded, with its check sequence. -/
def frameTo (dst kind : Nat) (b : Bytes) : EthFrame :=
  let raw := padTo 60 (beB 6 dst ++ beB 6 4 ++ beB 2 kind ++ b)
  { fecCorrected := 0, fecLost := 0, raw := raw ++ leB 4 (crc32 raw) }
/-- A UDP datagram without a checksum to port 0, whose MAC address is 2 and whose IPv4 address is 0xA000001. -/
def datagram (dport : Nat) (b : Bytes) : EthFrame :=
  let udp := beB 2 7 ++ beB 2 dport ++ beB 2 (8 + b.length) ++ zeros 2 ++ b
  let ip (sum : Nat) := beB 2 0x4500 ++ beB 2 (20 + udp.length) ++ zeros 2 ++ beB 2 0x4000 ++ beB 2 0x4011 ++ beB 2 sum
    ++ beB 4 0xA000002 ++ beB 4 0xA000001
  frameTo 2 0x0800 (ip (0xFFFF - inetSum (ip 0)) ++ udp)
/-- What such a datagram carries. -/
def carried (dport : Nat) (b : Bytes) : Datagram :=
  { v6 := false, src := 0xA000002, dst := 0xA000001, sport := 7, dport, ce := false, data := b }
/-- Port 0 up, with frames that wait, and more registers. -/
def port0 (rx : List (Nat × EthFrame)) (more : List (Nat × Word) := []) : Dev :=
  { up.dev with regs := [(ethReg 0 0, 0x8EFF0000), (ethReg 0 8, 2), (ethReg 0 0xC, 0), (ethReg 0 0x10, 0xA000001), (ethReg 0 0x24, 0x20001000)] ++ more
                eths := [(0, { up := true, rx })], seats := [(1300, { role := 15 })] }
/-- A stream frame of one record of 16 bytes, stream 9, SEQ 3. -/
def streamBytes : Bytes := leB 2 0xA6E1 ++ leB 1 1 ++ leB 1 0 ++ leB 2 9 ++ leB 2 1 ++ leB 8 3 ++ zeros 8 ++ leB 4 16 ++ zeros 4 ++ leB 8 5 ++ leB 8 6

set_option maxRecDepth 8192 in
theorem witness_Streams :
    (let f := datagram 0x1000 streamBytes
     let d := { port0 [(8, f)] [(strReg 1023 0, 0x80000009), (strReg 1023 4, 16)] with strs := [(1023, { valid := true })] }
     (d.eth 0).rx.find? (fun e => e.1 == 8) = some (8, f) ∧ ethBody f.raw = .udp (carried 0x1000 streamBytes) ∧ d.streamEntry 0 (fld streamBytes 4 2) = some 1023
     ∧ frameOk streamBytes (d.recBytes 1023) = true
     ∧ ((d.str 1023).accept (d.rn2 (strReg 1023 0x10)) (fld streamBytes 8 8)).isSome = true ∧ bit (fld streamBytes 3 1) 1 = false)
    ∧ (let r : StrRec := { time := 5, key := 6, sid := 9, port := 0, seq := 3, idx := 0, entry := 1023, data := zeros 16 }
       let d (x : GrpSt) : Dev := { up.dev with
         regs := [(grpReg 15 0, 0x10000000), (grpReg 15 0x10, 10), (grpReg 15 0x14, 0), (grpReg 15 0x28, 1), (grpReg 15 0x2C, 88), (grpReg 15 0x4C, 1),
                  (grpReg 15 0x50, 0x10000), (grpReg 15 0x54, 1), (grpReg 15 0x78, 10), (grpReg 15 0x7C, 0), (strReg 1023 0, 0x8F000000)]
         plt := { allocs := [{ id := 1, kind := 0, iset := 0, flags := 0, base := 0x100000, size := 0x1000, unit := 0, owner := 0xFFFF }] }
         grps := [(15, { x with on := true })], strs := [(1023, { valid := true, idle := false, quiet := 1 })] }
       let b := d { buf := [r] }
       (b.grp 15).block < b.closable 15 (b.grpWm 15) ∧ b.rn2 (grpReg 15 0x20) % 2 ^ 48 ≠ 2 ^ 48 - 1
       ∧ (b.grp 15).on = true ∧ (b.grp 15).closed = none
       ∧ (b.takeSlot (b.rn (grpReg 15 0x28)) (b.rn (grpReg 15 0x2C))).isSome = true
       -- no slot: block 0 waits closed; one that waited finds a slot
       ∧ Dev.takeSlot { b with plt := {} } (b.rn (grpReg 15 0x28)) (b.rn (grpReg 15 0x2C)) = none
       ∧ ((d { closed := some { k := 0, tag := 0, wm := 0, koi := false, recs := [r] } }).grp 15).closed
           = some { k := 0, tag := 0, wm := 0, koi := false, recs := [r] } ∧ r.time < b.blockAt 15 1
       ∧ fitRecords (b.rn (grpReg 15 0x2C) - 64) [r] = ([r], [])
       ∧ (b.str 1023).valid = true ∧ (b.str 1023).idle = false ∧ b.strGroup 1023 = 15 ∧ max 1 (b.rf (grpReg 15 0x54) 15 0) ≤ (b.str 1023).quiet
       ∧ ((d { pfc := true }).grp 15).pfc = true ∧ 1023 ∈ (d {}).members 15 ∧ (d {}).strPort 1023 = 0
       ∧ bit ((regs [(grpReg 15 0, 0x08000000)]).dev.rf (grpReg 15 0) 27 20) 7 = true
       ∧ ((d { spill := [r] }).grp 15).spill = [r] ∧ (d { spill := [r] }).grpOcc 15 ≤ (d {}).rf (grpReg 15 0x4C) 15 0
       ∧ (d { spill := [r] }).blockAt 15 0 ≤ r.time) := by decide +kernel

set_option maxRecDepth 8192 in
theorem witness_EthernetPorts :
    let d := port0 []
    d.ethOn 0 = true ∧ (port0 [] [(LNK, 0)]).ethOn 1 = false
    -- rows 8, 4, 1 for a codeword lost and for a check sequence that is wrong, and 3
    ∧ d.classify 0 (datagram 0x1000 []) = 8 ∧ d.classify 0 (datagram 0x2222 []) = 10
    ∧ d.classify 0 { datagram 0x1000 [] with fecLost := 1 } = 1 ∧ d.classify 0 { datagram 0x1000 [] with raw := zeros 64 } = 1
    ∧ d.classify 0 (frameTo 6 0x0800 []) = 3
    ∧ (let f := frameTo 0x0180C2000001 0x8808 (beB 2 0x0101 ++ beB 2 0x80 ++ zeros 15 ++ [5])
       let e := port0 [(2, f)]
       (e.eth 0).rx.find? (fun e => e.1 == 2) = some (2, f) ∧ ethBody f.raw = .pfc (2 ^ 7) [0, 0, 0, 0, 0, 0, 0, 5]
       ∧ bit (e.rf (ethReg 0 0) 23 16) 7 = true ∧ (e.eth 0).paused = [])
    ∧ (let e : Dev := { d with eths := [(1, { up := true, paused := [7], tx := [(7, .alive true)] })] }
       7 ∈ (e.eth 1).paused ∧ (e.eth 1).up = true)
    ∧ (let f := frameTo 2 0x0806 (beB 8 0x0001080006040001 ++ beB 6 4 ++ beB 4 0xA000002 ++ zeros 6 ++ beB 4 0xA000001)
       let e := port0 [(4, f)]
       (e.eth 0).rx.find? (fun e => e.1 == 4) = some (4, f) ∧ e.classify 0 f = 4 ∧ ethBody f.raw = .addrReq false 0xA000001 0xA000002
       ∧ ethTag f.raw = none ∧ ¬ e.rf (ethReg 0 0) 30 28 ∈ (e.eth 0).paused
       ∧ 0 ∈ ({ e.eth 0 with paused := [0] } : EthSt).paused ∧ e.rf (ethReg 0 0) 30 28 = 0)
    ∧ (let e : Dev := { up.dev with regs := [(ethReg 1 0, 0x80000000)], eths := [(1, { media := 1 })], seats := [(1301, { role := 15 })] }
       (e.eth 1).up = false ∧ e.rbit (ethReg 1 0) 31 = true ∧ (e.seat 1301).role = 15 ∧ (e.eth 1).media ≠ 0 ∧ e.flt.stage < 2
       ∧ e.mild 59 = true) := by decide +kernel

/-- A RoCEv2 packet of 64 bytes for queue pair 77: opcode, PSN, and its RETH where it has one. -/
def roce (op psn : Nat) (reth : Bytes) : Bytes := beB 1 op ++ zeros 1 ++ beB 2 0xFFFF ++ beB 4 77 ++ beB 4 psn ++ reth ++ zeros 64 ++ zeros 4

set_option maxRecDepth 8192 in
theorem witness_RoceAndLookups :
    (let b := roce 0x0A 0xFFFFFF (beB 8 0 ++ beB 4 9 ++ beB 4 64)
     let f := datagram 4791 b
     let k := rocePkt (carried 4791 b)
     let d := { port0 [(7, f)] [(qpReg 511 0, 0x8000004D), (qpReg 511 4, 0xFFFFFF), (qpReg 511 8, 9), (qpReg 511 0xC, 1), (qpReg 511 0x10, 1),
                                (qpReg 511 0x14, 1)] with plt := { allocs :=
         [{ id := 1, kind := 0, iset := 0, flags := 0, base := 0x100000, size := 64, unit := 0, owner := 0xFFFF }] } }
     let e := { d with plt := { allocs := [{ id := 1, kind := 0, iset := 0, flags := 0, base := 0x100000, size := 1024, unit := 0, owner := 0xFFFF }] } }
     (d.eth 0).rx.find? (fun e => e.1 == 7) = some (7, f) ∧ ethBody f.raw = .udp (carried 4791 b) ∧ d.classify 0 f = 7
     ∧ d.qpEntry 0 k.qpn = some 511 ∧ d.rbit (qpReg 511 0) 29 = false ∧ k.ce = false
     ∧ k.psn = d.rf (qpReg 511 4) 23 0 ∧ k.op = .writeOnly ∧ k.data = zeros 64
     ∧ d.roceJudge 511 k none = .take 0x100000 0x100000 64 false true
     ∧ d.roceJudge 511 { k with op := .writeFirst } none = .take 0x100000 0x100000 64 false false
     -- a SEND finds a receive slot
     ∧ (let k := rocePkt (carried 4791 (roce 4 0xFFFFFF []))
        k.op = .sendOnly ∧ (e.takeSlot 1 1024).map (·.1) = some 0x100000
        ∧ e.roceJudge 511 k (some 0x100000) = .take 0x100000 0x100000 64 true true))
    ∧ (let b := leB 2 0xA6E2 ++ leB 1 1 ++ leB 1 1 ++ leB 4 5 ++ leB 2 63 ++ leB 2 1 ++ zeros 20 ++ leB 8 42
       let f := datagram 0x2000 b
       let d := { port0 [(9, f)] [(fsReg 63 0, 0x80000040), (ethReg 0 0x2C, 1)] with plt := { allocs :=
         [{ id := 1, kind := 0, iset := 0, flags := 0, base := 0x100000, size := 0x200000, unit := 0, owner := 0xFFFF }] } }
       (d.eth 0).rx.find? (fun e => e.1 == 9) = some (9, f) ∧ ethBody f.raw = .udp (carried 0x2000 b) ∧ d.lookupCheck false b = .ok
       ∧ (d.eth 0).freeSlot = some 0 ∧ (d.alloc (d.rn (ethReg 0 0x2C))).isSome = true)
    ∧ (let k : LkSlot := { way := { dmac := 4, smac := 2, tag := none, v6 := false, src := 2, dst := 1, sport := 4, dport := 3 }, id := 5, fs := 63
                           rb := 8, keys := leB 8 42, step := 0, since := 0 }
       let t := job 1301 15 [] (zeros 16) (4096 + 4095) (2 ^ 48 - 1)
       let d := { atSeat 1301 t (zeros 16) with eths := [(1, { slots := [(4095, k)] })], now := 256, regs := [(ethReg 1 0x30, 1)] }
       d.atWork 1301 15 = some (0, t) ∧ bits t.arg 11 0 = 4095 ∧ t.tag = BitVec.allOnes 48 ∧ bits t.arg 12 12 = 1 ∧ (d.eth 1).late = []
       ∧ tfind (d.eth 1).slots 4095 = some k ∧ ((t.operand 0).map Pkt.length).getD 0 = k.keys.length / 8 * (8 + k.rb)
       ∧ (d.operandData t 0).2 = some (zeros 16)
       ∧ k.since + d.rf (ethReg 1 0x30) 15 0 * 256 ≤ d.now) := by decide +kernel

/-! Compression and memory -/

theorem witness_CompressionAndMemory :
    let j : CmpJob := { desc := zeros 64, src := .drill, tag := 0 }
    -- each queue comes first once
    ((({ drill := [j] } : PipeSt).last + 3) % 3 = 2 ∧ (({ ring := [j] } : PipeSt).last + 1) % 3 = 0 ∧ (({ seat_ := [j] } : PipeSt).last + 2) % 3 = 1)
    ∧ (([false, true] : List Bool).all (fun pack =>
        let s := has { up.dev with regs := [(qdrReg 7 0x800, 1)], pipes := [(if pack then 15 else 14, { drill := [j] })] }
        let d := if pack then s.dev.packWaiting 7 else s.dev
        (d.pipe 7 pack).run.isNone && d.rbit (qdrReg 7 0x800) 0 && d.flt.stage == 0 && (d.pipe 7 pack).next.isSome
          && ((has { up.dev with pipes := [(if pack then 15 else 14, { run := some j })] }).dev.pipe 7 pack).run == some j) = true)
    -- a job that its dispatch lets pass, and one that it refuses
    ∧ mapped.jobBad { j with desc := patch aJob 56 (leB 1 2) } = none ∧ (mapped.jobBad j).isSome = true ∧ mapped.replyWaits 7 j = false
    ∧ ({ j with src := .ring 1 } : CmpJob).src = .ring 1 ∧ ((atSeat 0 task0 []).task 0 1) = some task0
    ∧ j.src = .drill ∧ Job.follow j.desc = false ∧ (tget [] (up.dev.tutor 1231).queues 0x0D).length < 8
    ∧ up.mayWrite .host (qdrReg 7 0x8C0) = true ∧ maskedBit 0x10001 0 true
    ∧ (up.dev.pipe 0 false).drill.length < 8
    ∧ 8 ≤ ((has { up.dev with pipes := [(14, { drill := List.replicate 8 j })] }).dev.pipe 7 false).drill.length
    ∧ (let s := regs [(memCh 15 0, 8), (memCh 15 4, 1), (MEM + 0xC, 1)]
       s.running = true ∧ s.dev.rbit (memCh 15 0) 3 = true ∧ s.dev.rbit (memCh 15 4) 0 = true ∧ s.dev.rf (MEM + 0xC) 15 0 ≠ 0
       ∧ tfind s.dev.lines (s.dev.deviceAddr 15 (s.dev.rn2 (memCh 15 0x1C))) = none)
    ∧ (let o : Origin := { ring := 0, index := 5, user := 0, irq := false, op := 0x45 }
       let d : Dev := { up.dev with tds := [(65535, { aTDesc with dying := some o, users := [(0, 1)] })] }
       tfind d.tds 65535 = some { aTDesc with dying := some o, users := [(0, 1)] } ∧ d.selected = [] ∧ o.ring = 0) := by
  unfold maskedBit; decide +kernel

/-! The Miohar fabric -/

/-- A port of the fabric in some state, station 0 of a row of two. -/
def atPort (p : Nat) (x : PortSt) (now : Nat := 0) : State :=
  has { fabricOn up.dev with fab := { ports := [(p, x)], rowClosed := false, colClosed := false }, now }
/-- The control symbols of a training frame: 15 bytes and their check byte. -/
def control (b : Bytes) : List Nat := (b ++ [crc8 b]).map (fun x => 0x100 + x.toNat)
/-- A parameter record of station 1, port 1, of a fabric of one row and two columns. -/
def record (kind : Nat) : Bytes :=
  leB 2 0xA6F0 ++ leB 1 1 ++ leB 1 kind ++ leB 2 1 ++ leB 1 1 ++ leB 1 0 ++ leB 1 1 ++ zeros 3 ++ zeros 20

theorem witness_FabricPorts :
    ((atPort 3 { state := 1 }).dev.port 3).state = 1 ∧ (atPort 3 {}).dev.fab.colClosed = false ∧ (atPort 0 {}).dev.fab.rowClosed = false
    ∧ 2 ≤ ((atPort 3 { state := 5 }).dev.port 3).state ∧ (atPort 3 {}).dev.mild 47 = true
    ∧ up.mayWrite .host (prtReg 3 0) = true ∧ maskedBit 0x20002 1 true ∧ unmaskedBit 0x20002 0
    -- both sides of the first limit
    ∧ 6000000 < (atPort 0 { state := 2 } 6000001).dev.now - ((atPort 0 { state := 2 } 6000001).dev.port 0).since
    ∧ (atPort 0 { state := 2 } 6000000).dev.now - ((atPort 0 { state := 2 } 6000000).dev.port 0).since ≤ 6000000
    -- control symbols that spell their bytes, with a wrong check byte, and without bit 8
    ∧ controlBytes (control (zeros 5 ++ [1] ++ zeros 9)) = some (zeros 5 ++ [1] ++ zeros 9 ++ [crc8 (zeros 5 ++ [1] ++ zeros 9)])
    ∧ controlBytes ((control (zeros 15)).set 15 0x1FF) = none ∧ controlBytes (List.replicate 16 0) = none
    ∧ ((atPort 3 { state := 3 }).dev.port 3).ownOffer = none
    ∧ ((atPort 3 { state := 3 }).dev.port 3).offer = none
    -- a record seen twice before, and one that has just changed
    ∧ (let r := record 1
       let s (n : Nat) : State := atPort 0 { state := 4, paramRec := r, paramCount := n }
       r.length = 32 ∧ fld r 0 2 = 0xA6F0 ∧ fld r 2 1 = 1 ∧ (s 2).running = true ∧ ((s 2).dev.port 0).paramRec = r
       ∧ ((s 2).dev.port 0).paramCount + 1 = 3 ∧ (s 2).dev.paramOk 0 r = true ∧ bit (fld r 3 1) 0 = true
       ∧ (s 2).dev.rbit (prtReg 0 0) 2 = false ∧ (s 2).dev.mild 44 = true ∧ (s 2).dev.mild 48 = true
       ∧ (s 2).dev.paramOk 0 (patch r 6 [0]) = false ∧ ((s 0).dev.port 0).paramCount + 1 < 3)
    ∧ (4095#12).toNat = ((atPort 3 { state := 5, rxSeq := 4095 }).dev.port 3).rxSeq
    -- 15 wrong symbols of codeword A are corrected, 16 are not
    ∧ (let x : PortSt := { state := 5, width := 2 }
       let wrong (n : Nat) : List (Nat × Nat) := (List.range n).map (fun k => (0, k))
       (x.uncorrectable (wrong 15), x.corrected (wrong 15), x.uncorrectable (wrong 16), x.corrected (wrong 16)) = (0, 1, 1, 0) ∧ (1#2).toNat < 2)
    ∧ (let x : PortSt := { state := 5, episode := true }
       ((atPort 3 x 3200).dev.port 3).naks < max 1 ((atPort 3 x).dev.rf (prtReg 3 0) 15 8) ∧ 3200 ≤ (atPort 3 x 3200).dev.now - x.nakAt)
    ∧ (let s := atPort 3 {}
       s.dev.shuntWanted true = false ∧ (has { s.dev with fab := { colClosed := true } }).dev.fab.colClosed ≠ false ∧ s.running = true) := by
  unfold maskedBit unmaskedBit; decide +kernel

theorem witness_FabricMessages :
    (∀ port, port < 4 → linkEnd [(5, zeros 44)] 5 port = none) ∧
    let s (fab : FabSt) : State := has { fabricOn up.dev with fab }
    -- a flit of one message for station 0, and one for station 1 that has come from port 1
    (let f := mkFlit 1 3 true true 0 1 0 4 3 9 0 []
     let g := mkFlit 1 3 true true 1 0 0 0 0 9 0 []
     (s { arrived := [(0, f)] }).dev.fab.arrived = [(0, f)] ∧ Flit.first f = true ∧ Flit.last f = true ∧ Flit.dest f = (s {}).dev.station
     ∧ Flit.abort f = false ∧ bits (fld f 9 1) 4 0 ≤ 3 ∧ bit (Flit.flags f) 0 = false ∧ tfind (s {}).dev.fab.released (Flit.src f) = none
     ∧ Flit.first g = true ∧ Flit.last g = true ∧ Flit.dest g ≠ (s {}).dev.station ∧ Flit.hops g < 126
     ∧ (s {}).dev.outPort (Flit.dest g) (bit (Flit.flags g) 1) = some 0 ∧ tfind (s {}).dev.fab.locks (0 * 4 + Flit.tc g) = none)
    ∧ (let pkt := (aPkt 7 15 1).pkt
       let pkt := patch pkt 24 (leB 4 8)
       let m : Msg := { port := 3, src := 1, gen := 0, await_ := false, cls := 0, tc := 0, ackReq := true, id := 9, len := 40, data := pkt ++ leB 8 5 }
       let d : Dev := { up.dev with
         regs := [(LNK + 0x20, 1), (LNK + 0x24, 64)], fab := { inbox := [m] }
         plt := { allocs := [{ id := 1, kind := 0, iset := 0, flags := 0, base := 0x100000, size := 64, unit := 0, owner := 0xFFFF }] } }
       d.fab.inbox.find? (fun m => m.cls == 0) = some m ∧ d.rn (LNK + 0x20) ≠ 0 ∧ (d.alloc (d.rn (LNK + 0x20))).isSome = true
       ∧ d.staleSum m = false ∧ (m.data.drop 32).length ≤ d.rn (LNK + 0x24) ∧ 32 ≤ m.len ∧ Pkt.length (slice m.data 0 32) = m.len - 32
       ∧ (Dev.takeSlot { d with fab := { d.fab with inbox := d.fab.inbox.erase m } } (d.rn (LNK + 0x20)) (d.rn (LNK + 0x24))).isSome = true)
    ∧ (let m : Msg := { port := 0, src := 1, gen := 0, await_ := false, cls := 3, tc := 0, ackReq := false, id := 9, len := 8, data := zeros 8 }
       let t : Task := { uid := 1, idx := some 0, acks := [9, 10], phase := .finished }
       let d := (s { inbox := [m], waits := [(9, .result 0 1, 0), (65535, .read 71, 0)] }).dev
       let d := { d with quads := [(0, { tasks := [t] })], now := 65535 * 256 }
       d.fab.inbox.find? (fun m => m.cls == 3) = some m ∧ d.fab.waits.find? (fun w => w.1 == m.id) = some (m.id, .result 0 1, 0)
       ∧ d.task 0 1 = some t ∧ t.acks.filter (· != m.id) ≠ []
       ∧ d.fab.waits.find? (fun w => w.1 == 65535) = some (65535, .read 71, 0) ∧ 0 + d.reqTmo ≤ d.now ∧ 0 < 0 + d.reqTmo
       ∧ tfind (s { heldSince := [(2047, 0)] }).dev.fab.heldSince 2047 = some 0 ∧ d.fenceTmo ≤ d.now - 0 ∧ 0 - 0 < d.fenceTmo)
    ∧ up.dev.rbit LNK 31 = false ∧ (s {}).running = true ∧ (s {}).dev.rbit LNK 31 = true ∧ tfind (s { rings := [(2047, 5)] }).dev.fab.rings 2047 = some 5 ∧ (5#32).toNat ≤ 5
    ∧ (([0, 3] : List Nat).all (fun p => up.mayWrite .host (prtReg p 0x104) && up.mayWrite .host (prtReg p 0x108)) = true)
    ∧ (0xFFFF8000#32).toNat / 65536 = 0xFFFF ∧ maskedBit 0x10001 0 true := by
  unfold maskedBit; decide +kernel

/-! Faults, the supply and boot, the caretaker -/

theorem witness_Faults :
    up.running = true ∧ fltAssigned 511 = false ∧ (([0, 3, 4, 16] : List Nat).map (fun n => (fltAssigned n, up.dev.fltLevel n)))
        = [(true, 3), (true, 0), (true, 2), (true, 1)]
    -- the grace timer runs out in this cycle, escalation off and on
    ∧ (let s (v : Word) (stage : Nat) : State :=
         has { up.dev with regs := [(FLT, v)], flt := { stage, timerRun := true, started := 0, limit := 1000 }, now := 1000 * 400000 }
       (s 0 0).dev.flt.started + (s 0 0).dev.flt.limit * 400000 ≤ (s 0 0).dev.now ∧ (s 0 0).dev.rbit FLT 30 = false
       ∧ (s 0x40000000 1).dev.rbit FLT 30 = true ∧ (s 0x40000000 1).dev.flt.stage < 2 ∧ 2 ≤ (s 0x40000000 2).dev.flt.stage
       ∧ (s 0 1).mayWrite .host FLT = true)
    ∧ up.mayWrite .host (FLT + 0x14) = true ∧ (0#32).toNat = up.dev.fltSeq ∧ (1#32).toNat ≠ up.dev.fltSeq
    ∧ (let s := has { up.dev with flt := { stage := 1 } }
       s.mayWrite .caretaker FLT = true ∧ s.dev.flt.timerRun = false ∧ (0x80000000#32).getLsbD 31 = true)
    ∧ (([0, 1151] : List Nat).all (fun t => !up.dev.rbit (tilReg t 0xE0) 31 && up.mayWrite .host (tilReg t 8)) = true)
    ∧ up.dev.plt.seating = false ∧ maskedBit 0x10001 0 true ∧ ¬ maskedBit 0x10001 1 true := by
  unfold maskedBit; decide +kernel

/-- A module in a boot stage. -/
def boot (n : Nat) (r : CareRun := {}) : State := { State.reset with care := { power := .good, run := { r with stage := n } } }

theorem witness_SupplyAndBoot :
    let p (x : Power) : State := { State.reset with care := { power := x } }
    (p .off).care.power = .off ∧ 37000 < 37001 ∧ 33999 < 34000 ∧ (p (.starting false)).care.power = .starting false
    ∧ (p (.starting true)).care.power = .starting true ∧ (p .waiting).care.power = .waiting
    ∧ true ≠ up.care.resetLow ∧ up.care.power = .good ∧ up.mayWrite .caretaker (CTK + 0x20) = true ∧ (0xA5A5#32).toNat = 0xA5A5
    ∧ (([2, 3, 4, 5] : List Nat).all (fun n => (boot n).running && !(boot n).care.run.halted && (boot n).care.run.stage == n
        && !(boot n).care.kept.pending && !(boot n).care.run.triedOther && !(boot n).care.run.linksDone && !(boot n).dev.ringEn 0
        && !(boot n).care.run.onPending) = true)
    ∧ imageOk leastImage = true := by decide +kernel

theorem witness_StageNineHolds : up.care.run.stage = 9 ∧ (boot 5).care.run.stage ≤ 5
    ∧ (match exec (.perst false) { boot 5 { linksDone := true } with care := { (boot 5 { linksDone := true }).care with perstLow := true } } with
       | .next t => t.care.run.stage | _ => 0) = 6 := by decide +kernel

theorem witness_Mailboxes :
    let s (cmd : Word) (len : Word) (k : Kept := {}) : State :=
      { up with care := { up.care with kept := k, run := { up.care.run with mbHost := { cmd, len, busy := true } } } }
    (([1, 2, 3, 4, 5, 6, 7, 8] : List Nat).all (fun n => (s (BitVec.ofNat 32 n) 0).mbRuns .host n && up.mbRuns .i3c n) = true)
    ∧ ({} : Kept).certs.length ≤ (s 1 0).mbLen .host 0 ∧ 352 ≤ (s 2 352).mbLen .host 32
    ∧ imageOk leastImage = true ∧ leastImage.length = fld leastImage 8 4
    -- a key for the last owner slot
    ∧ (let b := leB 1 15 ++ zeros 3 ++ leB 1 4 ++ zeros 227
       b.length = 232 ∧ (∀ x ∈ slice b 104 128, x = 0#8) ∧ 4 ≤ fld b 0 1 ∧ fld b 0 1 < 16 ∧ tfind ({} : Kept).owners (fld b 0 1) = none
       ∧ fld b 4 1 = 4 ∧ ({} : Kept).ownerSet = false)
    ∧ (let k : Kept := { owners := [(4, { key := [], revoked := false }), (15, { key := [], revoked := false })], ownerSet := true }
       let b := leB 1 15 ++ zeros 191
       blockOk (slice b 64 128) = true ∧ tfind k.owners (fld b 0 1) = some { key := [], revoked := false }
       ∧ 2 ≤ (k.owners.filter (fun e => !e.2.revoked)).length)
    ∧ (s 7 64).mbLen .host 64 = 64 ∧ up.mbLen .i3c 64 = 64
    ∧ configOk (leB 2 2047 ++ leB 1 32 ++ leB 1 64 ++ zeros 60) = true := by decide +kernel

theorem witness_ClocksAndTelemetry :
    let s (r : CareRun) : State := { up with care := { up.care with run := { r with stage := 9 } } }
    (s {}).running = true
    -- the limits: 95 and 90 degrees
    ∧ min 100 (bits 0x5F5A 15 8) * 10 = 950 ∧ bits 0x5F5A 7 0 * 10 = 900
    ∧ (950 : Int) < max 951 0 ∧ max (899 : Int) 0 < 900 ∧ (∀ n, (s {}).care.run.sTAt = some n → n + 40000000 ≤ (s {}).dev.now)
    ∧ (s { pcap := 600 }).care.run.pcap ≠ 0 ∧ min 1800 (max 600 600) * 10 = 6000 ∧ 6000 < 6001 ∧ 16 * 5624 < 15 * 6000 ∧ 15 * 6000 ≤ 16 * 5625
    ∧ 5 ≤ (s {}).care.run.stage ∧ (s {}).care.run.stage = 9 ∧ (s {}).dev.flt.stage < 2 := by
  refine ⟨by decide, by decide, by decide, by decide, by decide, ?_, by decide, by decide, by decide, by decide, by decide, by decide, by decide, by decide⟩
  intro n h; cases h

theorem witness_ArmedWordsIgnoreWrites :
    let s := table 255 0 0x80020000 0
    s.dev.ttValid 255 = true ∧ (0xFFFFFFFF : Nat) ≠ 0 ∧ s.reaches .caretaker = true
    ∧ (([0, 8] : List Nat).all (fun o => (BitVec.ofNat 48 (ttbEnt 255 o)).toNat % 4 == 0
        && (s.dev.reach .caretaker (BitVec.ofNat 48 (ttbEnt 255 o)).toNat).1 == .reg (ttbEnt 255 o)) = true)
    ∧ s.mayWrite .host (ttbEnt 255 4) = true ∧ (0x800B0000#32).getLsbD 31 = true ∧ 10 < bits (0x800B0000#32).toNat 23 16
    ∧ (regs []).dev.ttValid 255 = false := by decide +kernel

theorem witness_CrcIsReflected :
    (([0x0E, 0x0F] : List Nat).all (fun op => ready (at0 (encF1 op 31 0 3)) 0 maskAll (encF1 op 31 0 3)) = true) := by decide +kernel

/-! Well-formedness: a term that each check refuses, and one that it accepts -/

def noFindings : BootFindings := { securityOk := true, quarantined := [], channels := [], failedPorts := [], failedEth := [] }
def noSensors : Sensors := { vin := 0, iin := 0, pin := 0, dies := [], dimms := [], coolant := 0 }

theorem test_wf_refuses_drill : ([.mix64 0 1 0, .mix64 0 0 1, .reduce 0 0 1 0, .slli 0 0 0 32, .loop 0 0 0, .loop 0 0 4096,
    .send 0 25 0 0, .sendTask 0 25, .sendCancel 0 25, .sendResub 0 25, .sendRingpost 0 25, .sendGo 0 25, .sendnb 0 25 0 0 0,
    .recv 0 25 0, .recvLaf 0 17, .recvnb 0 25 0 0] : List Instr).all (fun i => i.wf == false) = true := by decide

theorem test_wf_refuses_access : ([.registerWrite .host 0 0 0, .registerWrite .host 0 9 0, .registerWrite .host 0x4000000 4 0,
    .bitAliasWrite .tutor 0 4 0, .bitAliasWrite .host 0 0 0, .loRead .tutor false 0 4, .loRead .caretaker true 0 4,
    .loRead .host false 0 0, .auxCapTbRead .tutor, .doorbell 0 0 0, .doorbell 0 9 0, .apertureWrite 0 [], .apertureWrite 0xFFFFFF [0, 0],
    .bar4Access true 0 2 [0], .bar4Access false 0 1 [0], .bar4Access false 0 0 []] : List Instr).all (fun i => i.wf == false) = true := by
  decide

theorem test_wf_refuses_data : ([.descriptorFetch (List.replicate 17 none), .descriptorFetch [some []], .gatherTask 0,
    .gatherTask 1224, .scatterTask 1151, .trainingFrame 0 0 (List.replicate 16 0) [], .trainingFrame 0 0 (List.replicate 16 1024) (List.replicate 16 0), .prbsTestEnd 0 [], .paramRecord 0 [],
    .flitGroup 0 [] 0 0 0 [[]], .flitGroup 0 [] 0 0 0 (List.replicate 6 (List.replicate 256 0)),
    .ringFlit 0 0 0 (List.replicate 49 0),
    .telemetryRefresh noSensors, .bootStageEnd { noFindings with channels := List.replicate 17 (0, 0) }] : List Instr).all
      (fun i => i.wf == false) = true := by decide +kernel

theorem test_wf_accepts : ([.mix64 0 30 2, .reduce 0 0 2 1, .slli 0 0 0 31, .loop 0 0 4095, .sendTask 0 24, .recvLaf 0 16,
    .registerWrite .host 0x3FFFFFF 8 0, .apertureWrite 0xFFFFFF [0], .descriptorFetch [none], .gatherTask 1152, .scatterTask 1223,
    .trainingFrame 3 7 (List.replicate 16 1023) (List.replicate 16 0), .flitGroup 0 [] 0 0 0 (List.replicate 5 (List.replicate 256 0)),
    .ringFlit 0 0 0 (List.replicate 48 0), .bootStageEnd noFindings, .nop] : List Instr).all (fun i => i.wf) = true := by decide +kernel

theorem test_decode_none : decodeTableWord 32 0x01000000 = none ∧ up.withFetchWord 32 0x01000000 = up := ⟨rfl, rfl⟩

/-! Worked examples of the spec -/

/-- Tile ID 0x583 is dense tile 851 (chapter 1, worked example). -/
theorem test_tile_id : tileId 851 = 0x583 ∧ tileId 1151 = 0x78F := by decide
/-- One wrong cluster number, three windows (chapter 5, worked example). -/
theorem test_partial_decoding : canon 0x7F01002C58C4 = 0x7F01002450C4 ∧ canon 0x40002C590040 = 0x400024510040
    ∧ canon 0x410016701000 = 0x410012301000 := by decide +kernel
/-- An in-window bell with residual 400 cycles, a = 2 and b = 4 (chapter 2, worked example). -/
theorem test_bell_in_window :
    let h : Pht := { x := 0, p := 800000 * 4096, mode := .tracking, havePrev := true }
    let t := h.update { a := 2, b := 4, win := 8000, lock := 4, loss := 3 } 800400
    t.x = 800100 * 4096 ∧ t.p = 800025 * 4096 ∧ t.mode = .tracking := by decide +kernel
/-- Rounding half to even (R4). -/
theorem test_rne : rne (-16767900) 3 = -2095988 ∧ rne 5 1 = 2 ∧ rne 7 1 = 4 ∧ rne 3 0 = 3 := by decide
/-- One output element, two blocks (chapter 11, worked example). -/
theorem test_matrix_terms : mxTerm (-36) (775, -15) (601, -12) (-24) = -2095988 ∧ mxTerm (-100) (512, -10) (3, -8) (-24) = -9830400
    ∧ accAdd (accAdd (0, 0) (-2095988)) (-9830400) = (-11926388, 0) := by decide +kernel
/-- One INT8 block (chapter 7, worked example): scale word 0xC1F1, values 127, −21, 53. -/
theorem test_int8_block : quantBlock 127 [some ⟨3, 1⟩, some ⟨-1, 2⟩, some ⟨5, 4⟩] = (0xC1F1, [127, -21, 53], 0) := by decide +kernel
/-- LOG2 of a count (chapter 9, worked example). -/
theorem test_log2 : log2Q 101 = 6818 ∧ log2Q 1 = 0 := by decide +kernel
def key42 (time n : Nat) : JoinRow := { part := 0, key := (42, []), time, carried := [(n, 0, none)] }
/-- As-of matches with MAX_AGE 100 (chapter 9, worked example). -/
theorem test_asof :
    ([90, 150, 260, 300, 420] : List Nat).map (fun t =>
        ((asof [key42 100 1, key42 150 2, key42 150 3, key42 300 4] t 100).flatten.map (·.1) : List Nat))
      = [[], [3], [], [4], []] := by decide +kernel
/-- Two overlapping pieces with a tie at the k-th place (chapter 13, worked example). -/
theorem test_selection_merge :
    let p0 := bestK false 3 [(40, 1000), (72, 1001), (55, 1002), (72, 1003), (18, 1004), (90, 1005)]
    let p1 := bestK false 3 [(90, 1005), (55, 1006), (72, 1007), (61, 1008), (-3, 1009), (72, 1010)]
    let m := mergeRow 0x70 false 3 [(3, { entries := p0.1, tie := p0.2, total := 6, first := 1000 }),
      (3, { entries := p1.1, tie := p1.2, total := 6, first := 1005 })]
    p0.2 = false ∧ p1.2 = false ∧ m.2 = 1
    ∧ finalRecord false 3 m.1 = [3, 0, 1, 0, 12, 0, 0, 0, 0xED, 3, 0, 0, 0xE9, 3, 0, 0, 0xEB, 3, 0, 0, 0, 0, 0, 0] := by decide +kernel
/-- A link-state database of 8 rows and 16 columns in which some stations of row 2 are bypassed: each record names the next live
station of each port, up to two stations on (R387). -/
def linkDb (gone : List Nat) : Tbl Bytes :=
  let live (s : Nat) : Bool := !(s / 64 == 2 && gone.contains (s % 64))
  let way (s p n : Nat) : Nat :=
    let step (m k : Nat) : Nat := if p % 2 = 0 then (k + n) % m else (k + m - n) % m
    if p < 2 then s / 64 * 64 + step 16 (s % 64) else step 8 (s / 64) * 64 + s % 64
  let next (s p : Nat) : Option Nat := ((List.range 3).map (fun n => way s p (n + 1))).find? live
  ((List.range 8).flatMap (fun r => (List.range 16).map (fun c => r * 64 + c))).filter live |>.map (fun s =>
    (s, leB 2 s ++ zeros 10 ++ (List.range 4).flatMap (fun p => leB 1 (if (next s p).isSome then 5 else 1) ++ leB 1 2 ++ leB 2 ((next s p).getD s) ++ zeros 4)))
/-- Routes around bypassed stations (chapter 16, worked example). -/
theorem test_ring_manager :
    ([[], [1, 0], [1, 0, 15], [1, 0, 15, 8, 9, 10]] : List (List Nat)).map (fun l => ringEntry (linkDb l) 8 16 0x83 0x14E)
      = [0xA408, 0xA406, 0x940E, 0xE408] ∧ ringEntry (linkDb [1, 0, 15, 8, 9, 10]) 8 16 0x143 0x14E = 0xA005 := by decide +kernel
/-- The alignment marker of lane 5 (R363), a field's inverse in GF(2^10), and a codeword of one message symbol has all its syndromes
zero (R362). -/
theorem test_line_code :
    laneMarker 5 0 = [0x2D3, 0x12C, 0x2D3, 0x12C, 0x2D3, 0x12C, 0x2D3, 0x12C, 0x2D3, 0x12C, 0x2D3, 0x12C, 5, 0x3FA, 0, 0x3FF]
    ∧ gfMul 2 0x204 = 1
    ∧ (List.range 30).all (fun j => rsSyndrome (rsEncode [0x155]) j == 0) = true
    ∧ groupHeader 5 4 1 = 0x50044000 := by decide +kernel
/-- A hash to one of 1,000 buckets (chapter 9, R224). -/
theorem test_scaled_hash : mulHi 0x8000000000000000 1000 = 500 ∧ mulHi 0xFFFFFFFFFFFFFFFF 1000 = 999 ∧ mulHi 0 1000 = 0 := by decide
end Sys2Proof.Tests
end

section
/-! What a byte of memory reads after each memory operation: one rule for the cell list, one for the ranges of undefined
contents, and from them the rules of `Memory.write`, `writeN`, `zero` and `scramble` (R4, log entry 1). -/
namespace Sys2Proof.Machine

/-! The cell list -/

theorem findCell_eraseCell (l : List Host.Cell) (a c : Nat) :
    findCell (eraseCell l a) c = if c = a then none else findCell l c := by
  induction l with
  | nil => simp [eraseCell, findCell]
  | cons e t ih =>
    obtain ⟨k, v⟩ := e
    by_cases hk : k = a
    · subst hk
      rw [eraseCell, if_pos rfl, ih]
      by_cases hc : c = k
      · simp [hc]
      · simp [findCell, hc, Ne.symm hc]
    · by_cases hc : k = c
      · subst hc; simp [eraseCell, findCell, hk]
      · simp [eraseCell, findCell, ih, hk, hc]

theorem findCell_insertCell (l : List Host.Cell) (a : Nat) (x : Byte) (c : Nat) :
    findCell (insertCell l a x) c = if c = a then some x else findCell l c := by
  induction l with
  | nil => simp [insertCell, findCell, eq_comm]
  | cons e t ih =>
    obtain ⟨k, v⟩ := e
    rw [insertCell]
    split
    · simp [findCell, eq_comm]
    · split
      · next hk => subst hk; by_cases hc : a = c <;> simp [findCell, hc, eq_comm]
      · next hk =>
        by_cases hc : k = c
        · subst hc; simp [findCell, Ne.symm hk]
        · simp [findCell, ih, hc]

theorem findCell_filter (p : Nat → Bool) (l : List Host.Cell) (c : Nat) :
    findCell (l.filter (fun e => p e.1)) c = if p c = true then findCell l c else none := by
  induction l with
  | nil => simp [findCell]
  | cons e t ih =>
    obtain ⟨k, v⟩ := e
    by_cases hc : k = c
    · subst hc; by_cases hp : p k = true <;> simp [findCell, ih, hp]
    · by_cases hp : p k = true <;> simp [findCell, ih, hp, hc]

/-- The cells left when a range is taken out. -/
theorem findCell_outside (l : List Host.Cell) (lo len c : Nat) :
    findCell (l.filter (fun e => !(lo ≤ e.1 && e.1 < lo + len))) c
      = if lo ≤ c ∧ c < lo + len then none else findCell l c := by
  rw [findCell_filter (fun k => !(lo ≤ k && k < lo + len))]
  by_cases h : lo ≤ c ∧ c < lo + len <;> simp [h]

/-! Ranges of undefined contents -/

/-- An address that no range of undefined contents holds reads zero where no cell lists it. -/
theorem unlisted_eq_zero {rs : List (Nat × Nat × Nat)} {b : Nat} (h : ∀ r ∈ rs, ¬ (r.1 ≤ b ∧ b < r.1 + r.2.1)) :
    unlisted rs b = 0 := by
  induction rs with
  | nil => rfl
  | cons r t ih =>
    rw [unlisted, if_neg (h r List.mem_cons_self)]
    exact ih (fun q hq => h q (List.mem_cons_of_mem _ hq))

/-! One byte, and ranges -/

theorem Memory.read_write (m : Memory) (a b : Nat) (x : Byte) :
    (m.write a x).read b = if b = a then x else m.read b := by
  unfold Memory.read Memory.write
  dsimp only
  split
  · next hx =>
    rw [findCell_eraseCell]
    by_cases hb : b = a
    · subst hb; simp [hx]
    · simp [hb]
  · rw [findCell_insertCell]
    by_cases hb : b = a <;> simp [hb]

theorem Memory.read_writeN (data : Bytes) : ∀ (m : Memory) (a b : Nat),
    (m.writeN a data).read b = if a ≤ b ∧ b < a + data.length then data.getD (b - a) 0 else m.read b := by
  induction data with
  | nil => intro m a b; rw [if_neg (by simp)]; rfl
  | cons x t ih =>
    intro m a b
    rw [Memory.writeN, ih, Memory.read_write, List.length_cons]
    rcases Nat.lt_trichotomy b a with hlt | rfl | hgt
    · rw [if_neg (by omega), if_neg (by omega), if_neg (by omega)]
    · rw [if_neg (by omega), if_pos rfl, if_pos (by omega), Nat.sub_self, List.getD_cons_zero]
    · obtain ⟨n, rfl⟩ : ∃ n, b = a + 1 + n := ⟨b - (a + 1), by omega⟩
      rw [show a + 1 + n - a = n + 1 by omega, List.getD_cons_succ, Nat.add_sub_cancel_left]
      by_cases hn : n < t.length
      · rw [if_pos (by omega), if_pos (by omega)]
      · rw [if_neg (by omega), if_neg (by omega), if_neg (by omega)]

theorem Memory.read_scramble (m : Memory) (lo len seed b : Nat) :
    (m.scramble lo len seed).read b = if lo ≤ b ∧ b < lo + len then Config.freeByte seed b else m.read b := by
  unfold Memory.read Memory.scramble
  rw [findCell_outside, unlisted]
  split <;> rfl

/-- Zeroing takes the cells of the range out when no undefined contents reach it, and writes every byte otherwise. -/
theorem Memory.read_zero (m : Memory) (lo len b : Nat) :
    (m.zero lo len).read b = if lo ≤ b ∧ b < lo + len then 0 else m.read b := by
  unfold Memory.zero
  split
  · next hfar =>
    rw [List.all_eq_true] at hfar
    unfold Memory.read
    rw [findCell_outside]
    split
    · next hb =>
      refine unlisted_eq_zero (fun r hr => ?_)
      have hr := hfar r hr
      simp only [Bool.or_eq_true, decide_eq_true_eq] at hr
      omega
    · rfl
  · rw [Memory.read_writeN, zeros, List.length_replicate]
    split
    · rw [List.getD_eq_getElem?_getD, List.getElem?_replicate, if_pos (by omega)]
      rfl
    · rfl

/-- Settles O8, by one rule for a byte read after each of the three operations; the free value is the model's choice (log
entry 1). -/
theorem memoryRanges : Obligations.MemoryRanges :=
  ⟨fun m a b data => m.read_writeN data a b, Memory.read_zero, Memory.read_scramble⟩

end Sys2Proof.Machine
end

section
/-! Writes of one register and of one bit: the registers whose write sets nothing off, live registers, held registers of an
enabled owner, and the single-bit window over them (R5, R126, R129). -/
namespace Sys2Proof.Machine

/-! Registers whose write stores bits and sets nothing off -/

/-- A global register that no rule of its own writes (`Dev.ownWrite`) and whose write sets nothing off
(`Dev.globalEffect`). -/
structure PlainReg (a : Nat) : Prop where
  notMasked : a < TILW
  notTimetable : ¬ (TTB ≤ a ∧ a < TTB + 0x3000)
  notPin : ¬ (GLB + 0x108 ≤ a ∧ a < GLB + 0x11C)
  notControl : a ≠ PHT ∧ a ≠ PHT + 0x40 ∧ a ≠ PLT ∧ a ≠ FLT ∧ a ≠ FLT + 0x14 ∧ a ≠ ATT + 0x20 ∧ a ≠ MEM + 0x20
    ∧ a ≠ MEM + 0x31018
  notIntake : ¬ (MEM + 0x30000 ≤ a ∧ a < MEM + 0x31000)
  notRing : ¬ (RNG + 0x100000 ≤ a ∧ a < FLD)
  notEther : ¬ (ETH + 0x8000 ≤ a ∧ a < ETH + 0x38000)

theorem PlainReg.ownWrite_none {a : Nat} (h : PlainReg a) (d : Dev) (mask v : Word) (free : Bool) :
    d.ownWrite a mask v free = none := by
  have htime := h.notTimetable
  unfold Dev.ownWrite
  rw [if_neg (fun hc => htime ⟨Nat.le_of_add_right_le hc.1, hc.2.1⟩),
    if_neg (fun hc => htime ⟨Nat.le_of_add_right_le hc.1, hc.2.1⟩),
    if_neg (fun hc : a = TTB => htime ⟨Nat.le_of_eq hc.symm, Nat.lt_of_le_of_lt (Nat.le_of_eq hc) (by decide)⟩),
    if_neg h.notPin]

theorem PlainReg.globalEffect_none {a : Nat} (h : PlainReg a) (d : Dev) (mask v old new : Word) :
    d.globalEffect a mask v old new = d := by
  obtain ⟨hpht, hbell, hplt, hflt, hack, hsnap, herr, htd⟩ := h.notControl
  have heth {lo hi : Nat} (hlo : 0x8000 ≤ lo) (hhi : hi ≤ 0x38000) : ¬ (ETH + lo ≤ a ∧ a < ETH + hi) :=
    fun hc => h.notEther ⟨Nat.le_trans (Nat.add_le_add_left hlo ETH) hc.1,
      Nat.lt_of_lt_of_le hc.2 (Nat.add_le_add_left hhi ETH)⟩
  have hstr : ¬ (ETH + 0x8000 ≤ a ∧ a < ETH + 0x18000) := heth (by decide) (by decide)
  have hgrp : ¬ (ETH + 0x20000 ≤ a ∧ a < ETH + 0x21000) := heth (by decide) (by decide)
  have hqp : ¬ (ETH + 0x30000 ≤ a ∧ a < ETH + 0x38000) := heth (by decide) (by decide)
  simp only [Dev.globalEffect, hpht, hbell, hplt, hflt, hack, hsnap, herr, htd, h.notIntake, h.notRing, hstr, hgrp, hqp,
    if_false]

theorem PlainReg.isMasked_eq_false {a : Nat} (h : PlainReg a) : isMasked a = false := by
  rw [isMasked, decide_eq_false (Nat.not_le_of_lt h.notMasked), Bool.false_and]

/-- A write of a plain register under a mask is the write of its fields. -/
theorem PlainReg.putReg_eq {a : Nat} (h : PlainReg a) (d : Dev) {mask : Word} (hm : mask ≠ 0#32) (v : Word) (free : Bool) :
    d.putReg a mask v free = d.put32 a mask v free := by
  simp [Dev.putReg, hm, h.ownWrite_none, h.isMasked_eq_false, h.globalEffect_none]

/-! Live registers: all 32 bits live -/

/-- All 32 bits of the register are live (R5). -/
def LiveReg (a : Nat) : Prop := specOf a = { reset := (specOf a).reset, l := m32 }

/-- A write of a live register takes the bits under the mask and keeps the others. -/
theorem Dev.put32_live {a : Nat} (h : LiveReg a) (d : Dev) (mask v : Word) (free : Bool) :
    d.put32 a mask v free
      = if (d.rr a &&& ~~~mask) ||| (v &&& mask) = d.rr a then d else d.wr a ((d.rr a &&& ~~~mask) ||| (v &&& mask)) := by
  have hl : BitVec.ofNat 32 m32 &&& mask = mask := BitVec.allOnes_and
  have hc (x : Word) : x &&& 4294967295#32 = x := BitVec.and_allOnes
  unfold Dev.put32
  rw [h]
  simp [hl, hc]

theorem Dev.rr_put32_live {a : Nat} (h : LiveReg a) (d : Dev) (mask v : Word) (free : Bool) :
    (d.put32 a mask v free).rr a = (d.rr a &&& ~~~mask) ||| (v &&& mask) := by
  rw [Dev.put32_live h]
  split
  · next heq => exact heq.symm
  · exact d.rr_wr_same a _

/-- A write of a live register changes that register alone. -/
theorem Dev.put32_live_frame {a : Nat} (h : LiveReg a) (d : Dev) (mask v : Word) (free : Bool) :
    (d.put32 a mask v free).RegsAgreeOff d (· = a) ∧ (d.put32 a mask v free).SameButRegs d := by
  rw [Dev.put32_live h]
  split
  · exact ⟨fun _ _ => rfl, rfl⟩
  · exact ⟨fun b hb => d.rr_wr_ne _ hb, rfl⟩

/-! Held registers: all 32 bits held by an owner -/

/-- A write of a held register whose owner is enabled stores nothing and sets the owner's WRITE_REFUSED (R126). -/
theorem Dev.put32_refused {a r b : Nat} {sp : RegSpec} (h : specOf a = sp) (hl : sp.l = 0) (hc : sp.c = 0)
    (he : sp.en = some (r, b)) (d : Dev) (hon : d.rbit r b = true) {mask : Word} (hm : BitVec.ofNat 32 sp.h &&& mask ≠ 0#32)
    (v : Word) : d.put32 a mask v false = d.refuseHeld a := by
  subst h
  have hkeep : d.rr a &&& 4294967295#32 = d.rr a := BitVec.and_allOnes
  simp [Dev.put32, hl, hc, he, hon, hm, hkeep]

/-! One bit -/

theorem oneBit_ne_zero {b : Nat} (h : b < 32) : (1#32 <<< b) ≠ 0#32 := by
  intro heq
  have := congrArg (fun w : Word => w.getLsbD b) heq
  simp [h] at this

/-- A write under the mask of bit b: that bit is the one written, every other is the old word's. -/
theorem getLsbD_takeBit (old : Word) {b i : Nat} (hb : b < 32) (hi : i < 32) (one : Bool) :
    ((old &&& ~~~(1#32 <<< b)) ||| ((if one = true then 1#32 <<< b else 0#32) &&& 1#32 <<< b)).getLsbD i
      = if i = b then one else old.getLsbD i := by
  by_cases hib : i = b
  · subst hib; cases one <;> simp [hi]
  · have hbit : (1#32 <<< b).getLsbD i = false := by
      simp [hi]; omega
    rw [BitVec.getLsbD_or, BitVec.getLsbD_and, BitVec.getLsbD_and, BitVec.getLsbD_not, hbit]
    simp [hi, hib]

/-- A write of one bit outside the caretaker's block, of a held, live or write-1-to-clear bit. -/
theorem State.bitPut_global (s : State) {r b : Nat} (hc : ¬ (CTK ≤ r ∧ r < CTK + 0x10000)) (ho : (specOf r).o = 0)
    (hb : bit (specOf r).h b = true ∨ bit (specOf r).l b = true ∨ bit (specOf r).c b = true) (one : Bool) :
    s.bitPut r b one
      = (s.setDev (fun d => d.putReg r (1#32 <<< b) (if one then 1#32 <<< b else 0#32) false)).settle := by
  unfold State.bitPut
  rw [if_neg hc]
  dsimp only
  rw [if_neg (by simp [ho, bit]), if_pos hb]

/-! The single-bit window -/

/-- The register windows of R116 end below the single-bit window. -/
theorem isReg_eq_false_of_window {x : Nat} (h : BITW ≤ x) : isReg x = false := by
  have above {hi : Nat} (hhi : hi ≤ BITW) : ¬ x < hi := Nat.not_lt.mpr (Nat.le_trans hhi h)
  simp [isReg, above (show GLB + 0x1000000 ≤ BITW by decide), above (show TILW + 0x800000 ≤ BITW by decide),
    above (show CLUW + 0x80000 ≤ BITW by decide), above (show QDRW + 0x8000 ≤ BITW by decide),
    above (show PRTW + 0x8000 ≤ BITW by decide)]

/-- Bit b of the global register r in the single-bit window (R129). -/
theorem Dev.target_window (d : Dev) {r b : Nat} (hr : GLB ≤ r ∧ r < GLB + 0x1000000 ∧ r % 4 = 0) (hb : b < 32) :
    d.target (BITW + (r - GLB) / 4 * 128 + 4 * b) = .oneBit r b := by
  obtain ⟨n, hn, hr', hlt⟩ : ∃ n, (r - GLB) / 4 = n ∧ GLB + n * 4 = r ∧ n < 0x400000 :=
    ⟨_, rfl, by simp only [GLB] at *; omega, by simp only [GLB] at *; omega⟩
  have hoff : BITW + n * 128 + 4 * b - BITW = n * 128 + 4 * b := by rw [Nat.add_assoc, Nat.add_sub_cancel_left]
  have hword : (n * 128 + 4 * b) / 128 = n := by omega
  have hbit : (n * 128 + 4 * b) % 128 / 4 = b := by omega
  have hreg : isReg (BITW + n * 128 + 4 * b) = false :=
    isReg_eq_false_of_window (by rw [Nat.add_assoc]; exact Nat.le_add_right _ _)
  rw [hn, Dev.target, hreg, if_neg Bool.false_ne_true, if_pos ⟨by omega, by omega⟩, hoff, hword, hbit, hr']

/-- The caretaker's 4-byte write in the window writes that bit. -/
theorem exec_bitAliasWrite_caretaker {s : State} (hs : s.running = true) {r b : Nat}
    (hr : GLB ≤ r ∧ r < GLB + 0x1000000 ∧ r % 4 = 0) (hb : b < 32) {a : BitVec 48}
    (ha : a.toNat = BITW + (r - GLB) / 4 * 128 + 4 * b) (v : Word) :
    exec (.bitAliasWrite .caretaker a 4 v) s = .next (s.bitPut r b (v.getLsbD 0)) := by
  have hreach : s.dev.reach .caretaker a.toNat = (.oneBit r b, a.toNat, 0) := by
    show (s.dev.target a.toNat, a.toNat, 0) = _
    rw [ha, s.dev.target_window hr hb]
  have hal : a.toNat % 4 = 0 := by rw [ha]; simp only [BITW]; omega
  have hrs : s.reaches .caretaker = true := hs
  show Host.Outcome.next (s.bitAccess .caretaker a.toNat 4 v) = _
  simp [State.bitAccess, State.access, State.write4, hreach, hal, hrs, show Master.caretaker ≠ .host from nofun]

/-- A tutor's write in the window changes nothing (log entry 27). -/
theorem exec_bitAliasWrite_tutor (s : State) (a : BitVec 48) (w : BitVec 8) (v : Word) :
    exec (.bitAliasWrite .tutor a w v) s = .next s := by
  show Host.Outcome.next (s.bitAccess .tutor a.toNat w.toNat v) = _
  unfold State.bitAccess
  split <;> rfl

/-- A write of one bit of a plain register. -/
theorem yields_bitAliasWrite_plain {s : State} (hs : s.running = true) {r b : Nat} (hp : PlainReg r)
    (hr : GLB ≤ r ∧ r < GLB + 0x1000000 ∧ r % 4 = 0) (hc : ¬ (CTK ≤ r ∧ r < CTK + 0x10000)) (ho : (specOf r).o = 0)
    (hb : b < 32) (hbit : bit (specOf r).h b = true ∨ bit (specOf r).l b = true ∨ bit (specOf r).c b = true) {a : BitVec 48}
    (ha : a.toNat = BITW + (r - GLB) / 4 * 128 + 4 * b) (v : Word) :
    Yields (.bitAliasWrite .caretaker a 4 v) s
      (s.dev.put32 r (1#32 <<< b) (if v.getLsbD 0 = true then 1#32 <<< b else 0#32) false) := by
  rw [Yields, exec_bitAliasWrite_caretaker hs hr hb ha, s.bitPut_global hc ho hbit, State.setDev_const,
    hp.putReg_eq _ (oneBit_ne_zero hb)]

theorem bit_m32 {b : Nat} (h : b < 32) : bit m32 b = true := by
  have all : ∀ i : Fin 32, bit m32 i = true := by decide
  exact all ⟨b, h⟩

/-- A write of one bit of MEM_CE_THR gives it that bit and leaves the rest of the device (R129, R359). -/
theorem bitAliasWrite_ceThr {s : State} (hs : s.running = true) {b : Nat} (hb : b < 32) {a : BitVec 48}
    (ha : a.toNat = BITW + (MEM + 0x10 - GLB) / 4 * 128 + 4 * b) (v : Word) :
    YieldsSome (.bitAliasWrite .caretaker a 4 v) s (fun d =>
      (∀ i, i < 32 → d.rbit (MEM + 0x10) i = if i = b then v.getLsbD 0 else s.dev.rbit (MEM + 0x10) i)
      ∧ d.RegsAgreeOff s.dev (· = MEM + 0x10) ∧ d.SameButRegs s.dev) := by
  have hspec : specOf (MEM + 0x10) = { reset := 0x1000, l := m32 } := by decide
  have hlive : LiveReg (MEM + 0x10) := by rw [LiveReg, hspec]
  refine ⟨_, yields_bitAliasWrite_plain hs (by constructor <;> decide) (by decide) (by decide) (by decide) hb
    (.inr (.inl (by rw [hspec]; exact bit_m32 hb))) ha v, fun i hi => ?_, Dev.put32_live_frame hlive _ _ _ _⟩
  rw [Dev.rbit, Dev.rr_put32_live hlive]
  exact getLsbD_takeBit _ hb hi _

/-- A write of one bit of PHT_LOCK_WIN while the tracker is enabled is refused (R126, R129). -/
theorem bitAliasWrite_lockWin {s : State} (hs : s.running = true) {b : Nat} (hb : b < 32) {a : BitVec 48}
    (ha : a.toNat = BITW + (PHT + 0xC - GLB) / 4 * 128 + 4 * b) (hon : s.dev.rbit PHT 31 = true) (v : Word) :
    Yields (.bitAliasWrite .caretaker a 4 v) s (s.dev.wbit (PHT + 8) 31 true) := by
  have hspec : specOf (PHT + 0xC) = { reset := 0x1F40, h := m32, en := some (PHT, 31), ref := some (PHT + 8, 31) } := by
    decide
  have hmask : BitVec.ofNat 32 m32 &&& 1#32 <<< b ≠ 0#32 := by
    rw [show BitVec.ofNat 32 m32 = BitVec.allOnes 32 from rfl, BitVec.allOnes_and]
    exact oneBit_ne_zero hb
  have hrefuse : s.dev.refuseHeld (PHT + 0xC) = s.dev.wbit (PHT + 8) 31 true := by
    rw [Dev.refuseHeld, hspec]; rfl
  have h := yields_bitAliasWrite_plain hs (by constructor <;> decide) (by decide) (by decide) (by decide) hb
    (.inl (by rw [hspec]; exact bit_m32 hb)) ha v
  rwa [Dev.put32_refused hspec rfl rfl rfl s.dev hon hmask, hrefuse] at h

/-- Settles O20: a bit of a live register, a bit of a held register of an enabled owner, and a tutor, whose write in the window
changes nothing by the model's choice (log entry 27). -/
theorem singleBitWrites : Obligations.SingleBitWrites :=
  fun _ _ v hs hb =>
    ⟨fun _ ha => bitAliasWrite_ceThr hs hb ha v, fun _ ha hon => bitAliasWrite_lockWin hs hb ha hon v,
      fun a w => exec_bitAliasWrite_tutor _ a w v⟩

end Sys2Proof.Machine
end

section
/-! One timebase cycle on an empty queue (R20, R22, R433, log entry 7): what each part of `Dev.cycle` may change, and from the parts
what a step leaves as it is. -/
namespace Sys2Proof.Machine

/-! What the parts of a cycle may change -/

/-- e is d but for the registers, what has been sent, the field book, the attendance counters, the fabric and what the quadrants
count; the schedulers' tasks are those of d. -/
structure Dev.KeepsWork (d e : Dev) : Prop where
  fields : { d with regs := e.regs, sent := e.sent, fb := e.fb, att := e.att, fab := e.fab, quads := e.quads } = e
  tasks : ∀ q, (e.quad q).tasks = (d.quad q).tasks

namespace Dev.KeepsWork

theorem refl (d : Dev) : d.KeepsWork d := ⟨rfl, fun _ => rfl⟩

theorem trans {d e f : Dev} (h : d.KeepsWork e) (k : e.KeepsWork f) : d.KeepsWork f where
  fields := by rw [← k.fields, ← h.fields]
  tasks q := (k.tasks q).trans (h.tasks q)

theorem ite {d e f : Dev} {p : Prop} [Decidable p] (h : d.KeepsWork e) (k : d.KeepsWork f) : d.KeepsWork (if p then e else f) := by
  split
  · exact h
  · exact k

/-- A fold of operations each of which keeps the work keeps it. -/
theorem foldl {α : Type} {f : Dev → α → Dev} (h : ∀ (e : Dev) (x : α), e.KeepsWork (f e x)) (d : Dev) (l : List α) :
    d.KeepsWork (l.foldl f d) :=
  List.foldlRecOn l f (refl d) (fun _ hd _ _ => hd.trans (h _ _))

theorem setQuad {d e : Dev} (h : d.KeepsWork e) {q : Nat} {x : QuadSt} (hx : x.tasks = (d.quad q).tasks) :
    d.KeepsWork (e.setQuad q x) where
  fields := by rw [← h.fields]; rfl
  tasks r := by
    by_cases hr : r = q
    · subst hr; rw [e.quad_setQuad, hx]
    · rw [e.quad_setQuad_ne x hr, h.tasks]

end Dev.KeepsWork

theorem Dev.keepsWork_bump (d : Dev) (a n : Nat) : d.KeepsWork (d.bump a n) := ⟨rfl, fun _ => rfl⟩
theorem Dev.keepsWork_emit (d : Dev) (x : Sent) : d.KeepsWork (d.emit x) := ⟨rfl, fun _ => rfl⟩
theorem Dev.keepsWork_attAdd (d : Dev) (off n : Nat) : d.KeepsWork (d.attAdd off n) := ⟨rfl, fun _ => rfl⟩
theorem Dev.keepsWork_setFb (d : Dev) (x : Fb) : d.KeepsWork { d with fb := x } := ⟨rfl, fun _ => rfl⟩
theorem Dev.keepsWork_setFab (d : Dev) (x : FabSt) : d.KeepsWork { d with fab := x } := ⟨rfl, fun _ => rfl⟩
theorem Dev.keepsWork_setPort (d : Dev) (p : Nat) (x : PortSt) : d.KeepsWork (d.setPort p x) := d.keepsWork_setFab _

/-! The schedulers and the statistics units -/

theorem Dev.keepsWork_accrue (d : Dev) (q : Nat) : d.KeepsWork (d.accrue q) :=
  .setQuad (.trans (.ite (.refl d) (d.keepsWork_attAdd _ _)) (.ite (Dev.keepsWork_attAdd _ _ _) (.refl _))) rfl

theorem Dev.keepsWork_countStall (d : Dev) (unit since : Nat) : d.KeepsWork (d.countStall unit since) :=
  .ite ((d.keepsWork_bump _ _).trans (Dev.keepsWork_setFb _ _)) (d.keepsWork_setFb _)

/-! The fabric -/

theorem Dev.keepsWork_sendGroup (d : Dev) (p kind gseq : Nat) (flits : List Bytes) :
    d.KeepsWork (d.sendGroup p kind gseq flits) :=
  (d.keepsWork_setPort p _).trans (Dev.keepsWork_emit _ _)

theorem Dev.keepsWork_newGroup (d : Dev) (p kind : Nat) : d.KeepsWork (d.newGroup p kind) :=
  ((d.keepsWork_setPort p _).trans (Dev.keepsWork_sendGroup _ _ _ _ _)).trans (Dev.keepsWork_bump _ _ _)

theorem Dev.keepsWork_pumpN (p n : Nat) : ∀ d : Dev, d.KeepsWork (d.pumpN p n) := by
  induction n with
  | zero => exact Dev.KeepsWork.refl
  | succ n ih => exact fun d => .ite ((d.keepsWork_newGroup p 0).trans (ih _)) (.refl d)

theorem Dev.keepsWork_queueFlit (d : Dev) (p : Nat) (f : Bytes) : d.KeepsWork (d.queueFlit p f) :=
  (d.keepsWork_setPort p _).trans (Dev.keepsWork_pumpN p _ _)

theorem Dev.keepsWork_flood (d : Dev) (but : Option Nat) (f : Bytes) : d.KeepsWork (d.flood but f) :=
  .foldl (fun e p => .ite (e.keepsWork_queueFlit p f) (.refl e)) d _

theorem Dev.keepsWork_floodState (d : Dev) : d.KeepsWork d.floodState :=
  .ite (.refl d) ((d.keepsWork_setFab _).trans (Dev.keepsWork_flood _ _ _))

theorem Dev.keepsWork_sendFrame (d : Dev) (p lane : Nat) : d.KeepsWork (d.sendFrame p lane) :=
  (d.keepsWork_setPort p _).trans (Dev.keepsWork_emit _ _)

theorem Dev.keepsWork_portCycle (d : Dev) (p : Nat) : d.KeepsWork (d.portCycle p) :=
  .ite (.foldl (fun e lane => e.keepsWork_sendFrame p lane) d _) (.ite (d.keepsWork_bump _ _) (.refl d))

theorem Dev.keepsWork_fabricCycle (d : Dev) : d.KeepsWork d.fabricCycle := by
  have hports : d.KeepsWork ((d.fab.ports.map (·.1)).foldl (fun d p => d.portCycle p) d) :=
    .foldl Dev.keepsWork_portCycle d _
  exact .ite (hports.trans (Dev.keepsWork_floodState _)) hports

/-! The cycle and the step -/

/-- The device as its time alone advances by one timebase cycle at clock step S (R20, R22, R433). -/
def Dev.advance (d : Dev) (step : Nat) : Dev := { d with now := d.now + 1, qcyc64 := d.qcyc64 + 17 * (16 - step) }

/-- Once time has advanced, the rest of a cycle keeps the work. -/
theorem Dev.keepsWork_cycle (d : Dev) (step : Nat) : (d.advance step).KeepsWork (d.cycle step) := by
  have hquads : (d.advance step).KeepsWork (d.quads.foldl (fun d e => d.accrue e.1) (d.advance step)) :=
    .foldl (fun e (x : Nat × QuadSt) => e.keepsWork_accrue x.1) _ _
  have hfabric := hquads.trans (Dev.keepsWork_fabricCycle _)
  exact hfabric.trans (.foldl (fun e (x : Nat × Nat) => e.keepsWork_countStall x.1 x.2) _ _)

theorem step_of_idle {s : State} (h : s.pending = []) : step s = .next s.tick := by
  unfold step; rw [h]

theorem State.tick_running {s : State} (h : s.running = true) : s.tick = s.setDev (fun d => d.cycle s.care.run.s) := if_pos h

theorem State.tick_stopped {s : State} (h : s.running = false) : s.tick = s := if_neg (by simp [h])

/-- Settles O2: a step on an empty queue is a tick (the model's choice, log entry 7), and every part of the cycle but the passing of
time keeps the work. -/
theorem idleStepIsOneTick : Obligations.IdleStepIsOneTick := by
  intro s hq
  rw [step_of_idle hq]
  refine ⟨fun hr => ?_, fun hr => congrArg Host.Outcome.next (State.tick_stopped hr)⟩
  obtain ⟨hfields, htasks⟩ := s.dev.keepsWork_cycle s.care.run.s
  refine ⟨_, congrArg Host.Outcome.next (State.tick_running hr), rfl, hq, ?_⟩
  rw [State.setDev_dev, ← hfields]
  exact ⟨rfl, rfl, rfl, rfl, rfl, rfl, rfl, rfl, rfl, htasks⟩

end Sys2Proof.Machine
end

section
/-! The commands of ring 0 (R150, R151): the rule of the descriptor at the front of a ring, the rule of a ring-0 command, and
what each command does. -/
namespace Sys2Proof.Machine

/-- The descriptor at the front of a ring is executed, and then what stands next and has no command is refused (R151). -/
theorem Dev.descriptor_atFront {d : Dev} {n op : Nat} {f : Fetched} {b : Bytes} (h : d.AtFront n op f b)
    {g : Dev → Origin → Bytes → Option Dev} {e : Dev} (he : g (d.taken n) (originOf n f) b = some e) :
    d.descriptor n op g = e.skim n := by
  obtain ⟨index, serial, div, desc⟩ := f
  obtain ⟨hfront, rfl, hop⟩ := h
  unfold Dev.taken at he
  simp [Dev.descriptor, hfront, hop, he]

/-- A ring-0 command whose header is sound and whose unused bytes are zero leaves what its body answers. -/
theorem Dev.admin_atFront {d : Dev} {op used : Nat} {f : Fetched} {b : Bytes} (h : d.AtFront 0 op f b)
    (hhead : Dsc.headOk b = true) (hzero : zeroAt b used (64 - used) = true) (g : Dev → Origin → Bytes → Dev) :
    d.admin op used g = (g (d.taken 0) (originOf 0 f) b).skim 0 :=
  Dev.descriptor_atFront h (by simp [hhead, hzero])

/-- A ring-0 command obeys a law once its body answers what the law says. -/
theorem adminLaw_of_body {c : Instr} {op used : Nat} {g : Dev → Origin → Bytes → Dev} {p : Dev → Origin → Bytes → Dev → Prop}
    (hexec : ∀ s, exec c s = .next (s.onDev (fun d => d.admin op used g))) (hbody : ∀ d o b e, p d o b e → g d o b = e) :
    AdminLaw c op used p := by
  intro s f b hrun hfront hhead hzero e he
  have h := yields_of_onDev (hexec s) hrun
  rwa [Dev.admin_atFront hfront hhead hzero, hbody _ _ _ _ he] at h

/-- What every step of a fold keeps, the fold keeps. -/
theorem foldl_frame {α β γ : Type} (π : γ → β) {f : γ → α → γ} (h : ∀ e x, π (f e x) = π e) (l : List α) (d : γ) :
    π (l.foldl f d) = π d := by
  induction l generalizing d with
  | nil => rfl
  | cons x l ih => rw [List.foldl_cons, ih, h]

/-- A job that passes every check of R249 gets its slices' first slot and generation as RESULT, with PAD_OVERLAP on a hit. -/
theorem Dev.tdCreate_ok {d : Dev} {b : Bytes} {len : Nat} {a : Alloc} {ts : List TDesc} {slot : Nat} {hit : Bool}
    (h : d.tdCheck b len a = .ok (ts, slot, hit)) :
    (d.tdCreate b len a).2 = (if hit then .padOverlap else .ok, tget 0 d.tdGen slot * 65536 + slot) := by
  unfold Dev.tdCreate
  rw [h]
  simp only [Dev.wn_tdGen, Dev.bump_tdGen]
  rw [foldl_frame Dev.tdGen (fun e i => by split <;> rfl)]

/-- Settles O37: by the rule of a ring-0 command each law is about the command's body alone. A TASK_INJECT and a TDESC_DESTROY
complete later (R150, R254), and a TDESC_CREATE may answer PAD_OVERLAP (R249). -/
theorem ringZeroCommands : Obligations.RingZeroCommands := by
  refine ⟨?nop, ?allocAdd, ?allocFree, ?tdescCreate, ?tdescDestroy, ?fragApply, ?fragWithdraw, ?taskInject, ?cancel⟩
  case nop => exact adminLaw_of_body (fun _ => rfl) (fun _ _ _ _ he => he.symm)
  case allocAdd =>
    refine adminLaw_of_body (fun _ => rfl) ?_
    rintro d o b e ⟨hsize, hseated, hrecord, rfl⟩
    simp only [hrecord]
    rw [if_neg hsize, if_neg (by rintro ⟨hk, hs⟩; simp [hseated hk] at hs)]
  case allocFree =>
    refine adminLaw_of_body (fun _ => rfl) ?_
    rintro d o b e ⟨a, halloc, hplat, htds, hnamed, hbusy, rfl⟩
    simp only [halloc]
    rw [if_neg (by simp [hplat, htds, hnamed, hbusy])]
  case tdescCreate =>
    intro x
    refine adminLaw_of_body (fun _ => rfl) ?_
    rintro d o b e ⟨hlen, hjob, a, ts, slot, hit, halloc, hcheck, rfl⟩
    have hm32 : Dsc.length b ≠ m32 := fun h => absurd (h ▸ hlen) (by decide)
    simp [hm32, hjob, halloc, Nat.not_lt.mpr hlen, Dev.tdCreate_ok hcheck]
  case tdescDestroy =>
    refine adminLaw_of_body (fun _ => rfl) ?_
    rintro d o b e ⟨hnamed, rfl⟩
    exact if_pos hnamed
  case fragApply =>
    refine adminLaw_of_body (fun _ => rfl) ?_
    rintro d o b e ⟨hfrag, rfl⟩
    exact if_pos hfrag
  case fragWithdraw =>
    refine adminLaw_of_body (fun _ => rfl) ?_
    rintro d o b e ⟨hfrag, harmed, rfl⟩
    dsimp only
    rw [if_neg (by simpa [Option.isSome_iff_ne_none] using hfrag), if_neg (by simp [harmed])]
  case taskInject =>
    refine adminLaw_of_body (fun _ => rfl) ?_
    rintro d o b e ⟨hlen, hop, rfl⟩
    exact if_neg (fun h => h.elim hlen hop)
  case cancel =>
    refine adminLaw_of_body (fun _ => rfl) ?_
    rintro d o b e ⟨hflags, hkind, rfl⟩
    have hbits : bits (fld b 17 1) 2 0 = fld b 17 1 % 8 := by simp [bits]
    dsimp only
    rw [if_neg (fun h => h hflags), if_neg (Nat.not_lt.mpr hkind), hbits]

end Sys2Proof.Machine
end

section
/-! Loading, seating and re-seating (R69 to R77): what completing a descriptor leaves alone, the checks of a load, PLT_CTL, the
acceptance of a Plat, the end of seating, and a seat that opens. -/
namespace Sys2Proof.Machine

/-! Completions -/

@[simp] theorem Dev.complete_plt (d : Dev) (o : Origin) (lane : Option Nat) (st : Status) (detail result : Nat) :
    (d.complete o lane st detail result).plt = d.plt := by
  unfold Dev.complete
  dsimp only
  split <;> rfl

/-- A completion changes no register but the count of lost entries. -/
theorem Dev.rr_complete (d : Dev) (o : Origin) (lane : Option Nat) (st : Status) (detail result : Nat) {a : Nat} (ha : a ≠ RNG) :
    (d.complete o lane st detail result).rr a = d.rr a := by
  unfold Dev.complete
  dsimp only
  split
  · rfl
  · exact Dev.rr_bump_ne _ _ ha

/-! The checks of a load (R69, R150) -/

theorem headerOk_of_checkPlat {d : Dev} {station : Nat} {sig : Bool} {raw : Bytes} {len : Nat} {p : Plat}
    (h : checkPlat d station sig raw len = .ok p) : headerOk raw len = true := by
  unfold checkPlat at h
  split at h
  · exact absurd h nofun
  · next hgood => simpa using hgood

/-- A sound header without its signature is refused with SIGNATURE. -/
theorem checkPlat_unsigned {d : Dev} {station : Nat} {raw : Bytes} {len : Nat} (h : headerOk raw len = true) :
    checkPlat d station false raw len = .error { status := .signature } := by
  simp [checkPlat, h]

/-- There is room for a fragment: it takes the place of one, or fewer than 64 are kept (R74). -/
theorem fragment_fits {frags : Tbl Plat} {id : Nat} (h : (tfind frags id).isSome = true ∨ frags.length < 64) :
    ¬ ((tfind frags id).isNone = true ∧ 64 ≤ frags.length) := by
  rintro ⟨hnone, hfull⟩
  rcases h with hsome | hlt
  · simp [Option.isNone_iff_eq_none.mp hnone] at hsome
  · omega

/-- A Plat that passes every check but its signature: it is reported and accepted, or refused with SIGNATURE. -/
theorem State.platCheck_of_ok (s : State) {d : Dev} (o : Origin) (report : Nat) {len : Nat} {raw : Bytes} {p : Plat}
    (hok : checkPlat d d.station true raw len = .ok p)
    (hroom : p.kind = 1 → (tfind d.plt.frags p.fragId).isSome = true ∨ d.plt.frags.length < 64) :
    s.platCheck d o report len raw
      = { (s.verifyTail [2, 3] raw).2 with
          dev := if (s.verifyTail [2, 3] raw).1 then (d.emit (.hostWrite report (loadReport none p.id) false)).acceptPlat p o
            else d.platRefused o report { status := .signature } (fld raw 16 8) (if fld raw 6 1 = 1 then fld raw 14 2 else 0) } := by
  have hheader := headerOk_of_checkPlat hok
  have hfits : ¬ (p.kind = 1 ∧ (tfind d.plt.frags p.fragId).isNone = true ∧ 64 ≤ d.plt.frags.length) :=
    fun ⟨hk, hfull⟩ => fragment_fits (hroom hk) hfull
  unfold State.platCheck
  rw [if_pos hheader]
  rcases s.verifyTail [2, 3] raw with ⟨_ | _, t⟩
  · simp [checkPlat_unsigned hheader]
  · simp only [hok, if_neg hfits, if_true]

/-- A load whose descriptor is sound and whose bytes have come goes through the checks of a Plat. -/
theorem State.platLoad_atFront {s : State} {f : Fetched} {b : Bytes} (h : s.dev.AtFront 0 0x41 f b)
    (hhead : Dsc.headOk b = true) (hzero : zeroAt b 28 4 = true ∧ zeroAt b 40 24 = true) (hlen : Dsc.length b ≤ 0x10000000)
    (hstage : (s.dev.taken 0).stagingOk = true) (x : Bytes) :
    s.platLoad (some x)
      = let t := s.platCheck (s.dev.taken 0) (originOf 0 f) (fld b 32 8) (Dsc.length b) (slice x 0 (Dsc.length b))
        { t with dev := t.dev.skim 0 } := by
  obtain ⟨index, serial, div, desc⟩ := f
  obtain ⟨hfront, rfl, hop⟩ := h
  unfold Dev.taken at hstage ⊢
  have hm32 : Dsc.length b ≠ m32 := fun h => absurd (h ▸ hlen) (by decide)
  simp [State.platLoad, hfront, hop, hhead, hzero, hm32, Nat.not_lt.mpr hlen, hstage]

/-! PLT_CTL (R71, R83) -/

/-- PLT_CTL after a write: AUTO_SUBST and HOLD_SWITCH are live, every other bit stays. -/
def pltCtl (old v : Word) : Word := (old &&& 0xFFFFFFF9#32) ||| (v &&& 6#32)

theorem getLsbD_pltCtl (old v : Word) {i : Nat} (hi : i = 1 ∨ i = 2) : (pltCtl old v).getLsbD i = v.getLsbD i := by
  rcases hi with rfl | rfl <;> simp [pltCtl]

theorem Dev.put32_plt (d : Dev) (v : Word) :
    d.put32 PLT 0xFFFFFFFF#32 v false = if pltCtl (d.rr PLT) v = d.rr PLT then d else d.wr PLT (pltCtl (d.rr PLT) v) := by
  have hspec : specOf PLT = { reset := 2, l := 6 } := by decide
  have hall (w : Word) : w &&& 4294967295#32 = w := BitVec.and_allOnes
  unfold pltCtl
  simp [Dev.put32, hspec, hall]

theorem Dev.rr_put32_plt (d : Dev) (v : Word) : (d.put32 PLT 0xFFFFFFFF#32 v false).rr PLT = pltCtl (d.rr PLT) v := by
  rw [Dev.put32_plt]
  split
  · next heq => exact heq.symm
  · exact Dev.rr_wr_same _ _ _

/-- The fields of PLT_CTL are written to that register alone. -/
theorem Dev.put32_plt_frame (d : Dev) (v : Word) :
    (d.put32 PLT 0xFFFFFFFF#32 v false).RegsAgreeOff d (· = PLT) ∧ (d.put32 PLT 0xFFFFFFFF#32 v false).SameButRegs d := by
  rw [Dev.put32_plt]
  split
  · exact ⟨fun _ _ => rfl, rfl⟩
  · exact ⟨fun _ ha => Dev.rr_wr_ne _ _ ha, rfl⟩

@[simp] theorem Dev.put32_plt_plt (d : Dev) (v : Word) : (d.put32 PLT 0xFFFFFFFF#32 v false).plt = d.plt := by
  rw [Dev.put32_plt]
  split <;> rfl

theorem Dev.switchNow_of_none {d : Dev} (h : d.plt.staged = none) : d.switchNow = d := by
  rw [Dev.switchNow, h]

/-- A Plat that waits and is held by nothing is seated. -/
theorem Dev.switchNow_of_free {d : Dev} {p : Plat} {o : Option Origin} (h : d.plt.staged = some (p, o))
    (hseating : d.plt.seating = false) (hhold : d.rbit PLT 2 = false) (hpht : d.rbit PHT 31 = false) :
    d.switchNow = d.beginSeating p o false := by
  rw [Dev.switchNow, h]
  simp [hseating, hhold, hpht]

/-- A write of PLT_CTL that clears HOLD_SWITCH seats a Plat that waits, unless the phase tracker holds it for a bell (R71). -/
theorem Dev.regWrite_plt (d : Dev) (v : Word) :
    d.regWrite PLT v
      = let e := d.put32 PLT 0xFFFFFFFF#32 v false
        if d.rbit PLT 2 && !e.rbit PLT 2 && (!e.plt.seated || !e.rbit PHT 31) then e.switchNow else e := by
  have hmasked : isMasked PLT = false := by decide
  have hown : d.ownWrite PLT 0xFFFFFFFF#32 v false = none := by
    have htime : ¬ PLT < TTB + 0x3000 := by decide
    unfold Dev.ownWrite
    rw [if_neg (fun h => htime h.2.1), if_neg (fun h => htime h.2.1), if_neg (by decide), if_neg (by decide)]
  unfold Dev.regWrite writeMask Dev.putReg
  rw [hmasked, if_neg Bool.false_ne_true, if_neg (by decide), hown]
  dsimp only
  rw [if_neg Bool.false_ne_true]
  unfold Dev.globalEffect
  rw [if_neg (by decide), if_neg (by decide), if_pos rfl]
  rfl

/-- With no Plat waiting, a write of PLT_CTL changes that register alone. -/
theorem yields_holdSwitchClear_none {s : State} {m : Master} (v : Word) (hm : s.mayWrite m PLT = true)
    (hstaged : s.dev.plt.staged = none) :
    YieldsSome (.holdSwitchClear m v) s (fun d =>
      d.rbit PLT 2 = v.getLsbD 2 ∧ d.rbit PLT 1 = v.getLsbD 1 ∧ d.RegsAgreeOff s.dev (· = PLT) ∧ d.SameButRegs s.dev) := by
  refine ⟨_, yields_of_write (c := .holdSwitchClear m v) rfl hm (by decide), ?_⟩
  have hsame : s.dev.regWrite PLT v = s.dev.put32 PLT 0xFFFFFFFF#32 v false := by
    rw [Dev.regWrite_plt]
    dsimp only
    rw [Dev.switchNow_of_none (by rw [Dev.put32_plt_plt, hstaged]), ite_self]
  have hbits {i : Nat} (hi : i = 1 ∨ i = 2) : (s.dev.put32 PLT 0xFFFFFFFF#32 v false).rbit PLT i = v.getLsbD i := by
    rw [Dev.rbit, Dev.rr_put32_plt, getLsbD_pltCtl _ _ hi]
  rw [hsame]
  exact ⟨hbits (.inr rfl), hbits (.inl rfl), Dev.put32_plt_frame _ _⟩

/-- A Plat that waits is seated at once when HOLD_SWITCH goes to 0 and the phase tracker is off. -/
theorem yields_holdSwitchClear_staged {s : State} {m : Master} {v : Word} {p : Plat} {o : Option Origin}
    (hm : s.mayWrite m PLT = true) (hv : v.getLsbD 2 = false) (hheld : s.dev.rbit PLT 2 = true)
    (hstaged : s.dev.plt.staged = some (p, o)) (hseating : s.dev.plt.seating = false) (hpht : s.dev.rbit PHT 31 = false) :
    Yields (.holdSwitchClear m v) s ((s.dev.wr PLT (pltCtl (s.dev.rr PLT) v)).beginSeating p o false) := by
  have hput : s.dev.put32 PLT 0xFFFFFFFF#32 v false = s.dev.wr PLT (pltCtl (s.dev.rr PLT) v) := by
    rw [Dev.put32_plt, if_neg]
    intro heq
    rw [Dev.rbit, ← heq, getLsbD_pltCtl _ _ (.inr rfl), hv] at hheld
    exact absurd hheld nofun
  have hbit : (s.dev.wr PLT (pltCtl (s.dev.rr PLT) v)).rbit PLT 2 = false := by
    rw [Dev.rbit, Dev.rr_wr_same, getLsbD_pltCtl _ _ (.inr rfl), hv]
  have hbell : (s.dev.wr PLT (pltCtl (s.dev.rr PLT) v)).rbit PHT 31 = false := by
    rw [Dev.rbit, Dev.rr_wr_ne _ _ (by decide), ← Dev.rbit, hpht]
  have h := yields_of_write (c := .holdSwitchClear m v) rfl hm (by decide)
  rwa [Dev.regWrite_plt, hput, if_pos (by simp [hheld, hbit, hbell]),
    Dev.switchNow_of_free (d := s.dev.wr PLT _) hstaged hseating hbit hbell] at h

/-! A pair of registers -/

theorem Dev.rn2_wn2 (d : Dev) (a n : Nat) : (d.wn2 a n).rn2 a = n % 2 ^ 64 := by
  have hlo : (d.wn2 a n).rn a = n % 2 ^ 32 := by
    rw [Dev.wn2, Dev.rn, Dev.rr_wn_ne _ _ (by omega), ← Dev.rn, Dev.rn_wn_same]
  have hhi : (d.wn2 a n).rn (a + 4) = n / 2 ^ 32 % 2 ^ 32 := Dev.rn_wn_same _ _ _
  rw [Dev.rn2, hlo, hhi]
  omega

/-! The acceptance of a Plat (R71, R73, R74) -/

/-- The device once the load of a Plat that waits has been cancelled. -/
def Dev.cancelStaged (d : Dev) : Dev :=
  match d.plt.staged with
  | some (_, some o) => d.complete o none .cancelled 0 0
  | _ => d

@[simp] theorem Dev.cancelStaged_plt (d : Dev) : d.cancelStaged.plt = d.plt := by
  unfold Dev.cancelStaged
  split
  · exact d.complete_plt _ _ _ _ _
  · rfl

theorem Dev.cancelStaged_cpls (d : Dev) :
    d.cancelStaged.host.cpls = match d.plt.staged with
      | some (_, some o) => (d.complete o none .cancelled 0 0).host.cpls
      | _ => d.host.cpls := by
  unfold Dev.cancelStaged
  split <;> rfl

theorem Dev.rbit_cancelStaged (d : Dev) {a : Nat} (i : Nat) (ha : a ≠ RNG) : d.cancelStaged.rbit a i = d.rbit a i := by
  unfold Dev.cancelStaged
  split
  · rw [Dev.rbit, d.rr_complete _ _ _ _ _ ha, ← Dev.rbit]
  · rfl

/-- Nothing holds the switch to a Plat that has been accepted: no seating is under way, and with a Plat seated neither
HOLD_SWITCH nor the phase tracker is set (R71). -/
def Dev.SwitchFree (d : Dev) : Prop :=
  d.plt.seating = false ∧ (d.plt.seated = false ∨ (d.rbit PLT 2 = false ∧ d.rbit PHT 31 = false))

theorem Dev.switchFree_iff (d : Dev) :
    (!d.cancelStaged.plt.seating && (!d.cancelStaged.plt.seated || (!d.cancelStaged.rbit PLT 2 && !d.cancelStaged.rbit PHT 31)))
      = true ↔ d.SwitchFree := by
  simp [Dev.SwitchFree, d.rbit_cancelStaged (a := PLT) 2 (by decide), d.rbit_cancelStaged (a := PHT) 31 (by decide)]

theorem Dev.acceptPlat_container (d : Dev) {p : Plat} (o : Origin) (hk : p.kind = 2) :
    d.acceptPlat p o = { d with plt := { d.plt with containers := d.plt.containers ++ [(p, some o)] } } := by
  simp only [Dev.acceptPlat, hk]

theorem Dev.acceptPlat_fragment {d : Dev} {p : Plat} (o : Origin) (hk : p.kind = 1)
    (hroom : (tfind d.plt.frags p.fragId).isSome = true ∨ d.plt.frags.length < 64) :
    let fs := tput d.plt.frags p.fragId p
    d.acceptPlat p o
      = ({ d with plt := { d.plt with frags := fs } }.wn (PLT + 0x38) fs.length).complete o none .ok 0 p.fragId := by
  simp only [Dev.acceptPlat, hk]
  rw [if_neg (fragment_fits hroom)]

/-- A full Plat (R71): one staged before it is cancelled, and it is seated at once or waits. -/
theorem Dev.acceptPlat_full {d : Dev} {p : Plat} (o : Origin) (hk : p.kind = 0) :
    d.acceptPlat p o
      = let e := d.cancelStaged
        if !e.plt.seating && (!e.plt.seated || (!e.rbit PLT 2 && !e.rbit PHT 31)) then
          let f := e.beginSeating p (some o) false
          { f with plt := { f.plt with ringWait := true } }
        else ({ e with plt := { e.plt with staged := some (p, some o) } } : Dev).wn2 (PLT + 0x10) p.id := by
  unfold Dev.acceptPlat Dev.cancelStaged
  rw [hk]
  rcases d.plt.staged with _ | ⟨q, _ | o'⟩ <;> simp only

theorem Dev.acceptPlat_free {d : Dev} {p : Plat} (o : Origin) (hk : p.kind = 0) (hfree : d.SwitchFree) :
    let e := d.acceptPlat p o
    e.plt.seating = true ∧ e.plt.incoming = some (p, some o) ∧ e.plt.ringWait = true := by
  rw [Dev.acceptPlat_full o hk]
  dsimp only
  rw [if_pos (d.switchFree_iff.mpr hfree)]
  exact ⟨rfl, rfl, rfl⟩

theorem Dev.acceptPlat_held {d : Dev} {p : Plat} (o : Origin) (hk : p.kind = 0) (hheld : ¬ d.SwitchFree) :
    let e := d.acceptPlat p o
    e.plt = { d.plt with staged := some (p, some o) } ∧ e.rn2 (PLT + 0x10) = p.id % 2 ^ 64
      ∧ e.host.cpls = d.cancelStaged.host.cpls := by
  rw [Dev.acceptPlat_full o hk]
  dsimp only
  rw [if_neg (fun h => hheld (d.switchFree_iff.mp h))]
  refine ⟨?_, Dev.rn2_wn2 _ _ _, rfl⟩
  rw [← d.cancelStaged_plt]
  rfl

/-! The end of seating (R72) -/

@[simp] theorem Dev.dropStaged_frags (d : Dev) : d.dropStaged.plt.frags = [] := by
  unfold Dev.dropStaged
  dsimp only
  rw [Dev.wn_plt, foldl_frame Dev.plt (fun e c => by split <;> simp)]

/-- A Plat that is being seated with no task left running: it is seated, and then one that waits and is held by nothing
follows. -/
theorem Dev.seatingComplete_of_idle {d : Dev} {p : Plat} {o : Option Origin} (digest : Bytes → Bytes)
    (hin : d.plt.incoming = some (p, o)) (hseating : d.plt.seating = true) (hidle : d.anyRunning = false) :
    ∃ e : Dev, d.seatingComplete digest = e.switchNow
      ∧ e.plt.seated = true ∧ e.plt.seating = false ∧ e.plt.incoming = none ∧ e.plt.ringWait = false ∧ e.plt.frags = []
      ∧ e.plt.digest = digest (p.raw.take (p.raw.length - 128)) := by
  unfold Dev.seatingComplete
  rw [hin]
  dsimp only
  rw [if_neg (by simp [hseating, hidle])]
  cases o with
  | none => exact ⟨_, rfl, rfl, rfl, rfl, rfl, Dev.dropStaged_frags _, rfl⟩
  | some o =>
    refine ⟨_, rfl, ?_⟩
    rw [Dev.complete_plt]
    exact ⟨rfl, rfl, rfl, rfl, Dev.dropStaged_frags _, rfl⟩

/-! A re-seated seat (R66, R77) -/

/-- A drill image that has been loaded runs. -/
theorem Dev.loadDrill_mode (d : Dev) (t : Nat) (g : Drill) : ((d.loadDrill t g).tutor t).mode = .running := by
  rw [Dev.loadDrill, Dev.restart, Dev.tutor_setTutor]

theorem Dev.halt_mode (d : Dev) (t : Nat) : ((d.halt t).tutor t).mode = .halted :=
  congrArg TutorSt.mode (d.tutor_setTutor t _)

/-- Loading or halting the tutor of a seat changes neither the seating nor a seat. -/
theorem Dev.drillSeat_frame (d : Dev) (n : Nat) (g : Option Drill) :
    (d.drillSeat n g).plt = d.plt ∧ (d.drillSeat n g).seats = d.seats := by
  unfold Dev.drillSeat
  split
  · exact ⟨rfl, rfl⟩
  · split
    · exact ⟨rfl, rfl⟩
    · split <;> exact ⟨rfl, rfl⟩

/-- The tutor of a seat runs when its entry brings a drill image, and stands halted when not (R65, R66). -/
theorem Dev.drillSeat_mode (d : Dev) {n t : Nat} (g : Option Drill) (ht : seatTutor n = some t) :
    ((d.drillSeat n g).tutor t).mode = if g.isSome then .running else .halted := by
  unfold Dev.drillSeat
  rw [ht]
  cases g with
  | some g => exact d.loadDrill_mode t g
  | none =>
    dsimp only
    split
    · assumption
    · exact d.halt_mode t

/-- The device with a seat off the list of those that are to open. -/
def Dev.delOpening (d : Dev) (n : Nat) : Dev := { d with plt := { d.plt with opening := tdel d.plt.opening n } }

/-- A re-seated seat whose old task has ended: its tutor is loaded or halted, an Ethernet port in use is enabled, and it opens. -/
theorem Dev.openSeat_of_empty {d : Dev} {n : Nat} {g : Option Drill} (hop : tfind d.plt.opening n = some g)
    (hslots : (d.seat n).slots = []) :
    d.openSeat n
      = let e := (d.delOpening n).drillSeat n g
        let f := if 1300 ≤ n ∧ (e.seat n).role = 15 ∧ !(e.eth (n - 1300)).failed then e.wbit (ethReg (n - 1300) 0) 31 true else e
        f.setSeat n { f.seat n with opened := true } := by
  unfold Dev.openSeat
  rw [hop]
  dsimp only
  rw [hslots]
  rfl

/-- A seat that opens keeps its other fields and comes off the list of those that are to open; the tutors are as its entry left
them. -/
theorem Dev.openSeat_frame {d : Dev} {n : Nat} {g : Option Drill} (hop : tfind d.plt.opening n = some g)
    (hslots : (d.seat n).slots = []) :
    (d.openSeat n).seat n = { d.seat n with opened := true } ∧ (d.openSeat n).plt = (d.delOpening n).plt
      ∧ (d.openSeat n).tutors = ((d.delOpening n).drillSeat n g).tutors := by
  obtain ⟨hplt, hseats⟩ := (d.delOpening n).drillSeat_frame n g
  have hseat : ((d.delOpening n).drillSeat n g).seat n = d.seat n := by
    rw [Dev.seat, hseats]
    rfl
  rw [Dev.openSeat_of_empty hop hslots]
  generalize (d.delOpening n).drillSeat n g = e at hplt hseat
  dsimp only
  rw [Dev.seat_setSeat, ← hseat]
  split
  · exact ⟨rfl, hplt, rfl⟩
  · exact ⟨rfl, hplt, rfl⟩

theorem yields_reseatOpen {s : State} (hrun : s.running = true) {seat : Seat} {g : Option Drill}
    (hop : tfind s.dev.plt.opening seat.val = some g) (hslots : (s.dev.seat seat.val).slots = []) :
    YieldsSome (.reseatOpen seat) s (fun d =>
      (d.seat seat.val) = { s.dev.seat seat.val with opened := true } ∧ tfind d.plt.opening seat.val = none
      ∧ ∀ t, seatTutor seat.val = some t → (d.tutor t).mode = (if g.isSome then .running else .halted)) := by
  obtain ⟨hseat, hplt, htutors⟩ := Dev.openSeat_frame hop hslots
  refine ⟨_, yields_of_onDev (c := .reseatOpen seat) rfl hrun, hseat, ?_, fun t ht => ?_⟩
  · rw [hplt]
    exact tfind_tdel_same _ _
  · rw [Dev.tutor, htutors]
    exact Dev.drillSeat_mode _ g ht

/-- Settles O30: the load by the checks of a Plat, HOLD_SWITCH by the write of PLT_CTL, the rest by what the acceptance of a Plat,
the end of seating and the opening of a seat leave. -/
theorem platAndSeating : Obligations.PlatAndSeating := by
  refine ⟨fun s => ⟨?load, ?hold, ?switch⟩, fun d p o => ⟨?container, ?fragment, ?full⟩, fun s hrun => ⟨?complete, ?reseat⟩⟩
  case load =>
    intro f b x p hrun hfront
    dsimp only
    intro hhead h28 h40 hlen hstage hok hroom
    show Host.Outcome.next (if s.running then (s.platLoad (some x)).settle else s) = _
    rw [if_pos hrun, State.platLoad_atFront hfront hhead ⟨h28, h40⟩ hlen hstage, s.platCheck_of_ok _ _ hok hroom]
    simp only [Dev.platRefused]
  case hold => exact fun m v hm hstaged => yields_holdSwitchClear_none v hm hstaged
  case switch =>
    exact fun m v p o hm hv hheld hstaged hseating hpht => yields_holdSwitchClear_staged hm hv hheld hstaged hseating hpht
  case container => exact d.acceptPlat_container o
  case fragment => exact Dev.acceptPlat_fragment o
  case full =>
    intro hk
    refine ⟨Dev.acceptPlat_free o hk, fun hheld => ?_⟩
    obtain ⟨hplt, hid, hcpls⟩ := Dev.acceptPlat_held o hk hheld
    exact ⟨hplt, hid, hcpls.trans d.cancelStaged_cpls⟩
  case complete =>
    intro p o hin hseating hidle
    have hyields : Yields .seatingComplete s (s.dev.seatingComplete Config.sha384) :=
      yields_of_onDev (f := fun d => d.seatingComplete Config.sha384) rfl hrun
    obtain ⟨e, heq, hseat⟩ := Dev.seatingComplete_of_idle Config.sha384 hin hseating hidle
    rw [heq] at hyields
    exact ⟨e, hyields, hseat⟩
  case reseat => exact fun seat g hop hslots => yields_reseatOpen hrun hop hslots

end Sys2Proof.Machine
end

section
/-! Refusals and completions of ring 0 (R150 to R152). -/
namespace Sys2Proof.Machine

/-- A descriptor of ring 0 completes on ring 1 and is open no more. -/
theorem Dev.complete_ringZero (d : Dev) {o : Origin} (ho : o.ring = 0) (st : Status) (detail result : Nat) :
    d.complete o none st detail result
      = let e := d.setRing 0 { d.ring 0 with open_ := (d.ring 0).open_.filter (· != o.serial) }
        { e with host := { e.host with
            cpls := d.host.cpls ++ [{ ring := 1, lane := none, origin := o, status := st, detail, result }] } } := by
  unfold Dev.complete
  rw [ho]
  rfl

/-- A ring-0 command whose header or unused bytes are not sound is refused with detail 3. -/
theorem Dev.admin_unsound {d : Dev} {op used : Nat} {f : Fetched} {b : Bytes} (h : d.AtFront 0 op f b)
    (hbad : Dsc.headOk b = false ∨ zeroAt b used (64 - used) = false) (g : Dev → Origin → Bytes → Dev) :
    d.admin op used g = ((d.taken 0).complete (originOf 0 f) none .descInvalid 3 0).skim 0 :=
  Dev.descriptor_atFront h (by rw [if_pos (by simpa using hbad)])

/-- Settles O38: the refusals by the rule of a ring-0 command, the completion by what completing a descriptor of ring 0 leaves. -/
theorem ringZeroEnds : Obligations.RingZeroEnds := by
  refine ⟨⟨?nop, ?allocFree, ?tdescDestroy, ?fragApply⟩, ?completion⟩
  case nop =>
    intro s f b hrun hfront hbad
    rw [← Dev.admin_unsound hfront hbad (fun d o _ => d.complete o none .ok 0 0)]
    exact yields_of_onDev (f := Dev.nop) rfl hrun
  case allocFree =>
    refine adminLaw_of_body (fun _ => rfl) ?_
    rintro d o b e ⟨hnone, rfl⟩
    simp only [hnone]
  case tdescDestroy =>
    refine adminLaw_of_body (fun _ => rfl) ?_
    rintro d o b e ⟨hnamed, rfl⟩
    exact if_neg (by simp [hnamed])
  case fragApply =>
    refine adminLaw_of_body (fun _ => rfl) ?_
    rintro d o b e ⟨hnone, rfl⟩
    exact if_neg (by simp [hnone])
  case completion =>
    intro d o st detail result ho
    dsimp only
    rw [Dev.complete_ringZero d ho]
    exact ⟨rfl, congrArg RingSt.open_ (d.ring_setRing 0 _), rfl, rfl⟩

end Sys2Proof.Machine
end

section
/-! The host link (R139, R148, R152, R156, R157): entries written to the host's rings, deliveries to its buffers, and the resets
of the link. -/
namespace Sys2Proof.Machine

/-! What a completion and the end of an emission leave alone -/

theorem Dev.ring_setRing_ne (d : Dev) {n m : Nat} (x : RingSt) (h : m ≠ n) : (d.setRing n x).ring m = d.ring m := by
  simp [Dev.ring, Dev.setRing, tget_tput_ne _ _ _ h]

@[simp] theorem Dev.emitSt_setEmit (d : Dev) (n : Nat) (x : EmitSt) : (d.setEmit n x).emitSt n = x := by
  simp [Dev.emitSt, Dev.setEmit]

/-- A completion changes registers and the host's rings and completions alone, and of a ring its open descriptors alone. -/
theorem Dev.complete_fields (d : Dev) (o : Origin) (lane : Option Nat) (st : Status) (detail result : Nat) : ∃ regs host,
    d.complete o lane st detail result = { d with regs, host } ∧ host.deliveries = d.host.deliveries
      ∧ ∀ n, (tget {} host.rings n).buffers = (d.ring n).buffers := by
  have hopen (l : List Nat) (n : Nat) :
      ((d.setRing o.ring { d.ring o.ring with open_ := l }).ring n).buffers = (d.ring n).buffers := by
    by_cases h : n = o.ring
    · rw [h, Dev.ring_setRing]
    · rw [d.ring_setRing_ne _ h]
  unfold Dev.complete
  dsimp only
  split
  · exact ⟨_, _, rfl, rfl, hopen _⟩
  · exact ⟨_, _, rfl, rfl, hopen _⟩

/-- Starting the next emission of a stream changes the streams and the attendance counters alone. -/
theorem Dev.tryEmit_fields (d : Dev) (k : Nat) : ∃ emits att, d.tryEmit k = { d with emits, att } := by
  unfold Dev.tryEmit
  dsimp only
  split
  · split
    · exact ⟨d.emits, d.att, rfl⟩
    · exact ⟨_, _, rfl⟩
  · exact ⟨d.emits, d.att, rfl⟩

/-- The end of an emission changes the streams and the attendance counters alone. -/
theorem Dev.emissionDone_fields (d : Dev) (k : Nat) : ∃ emits att, d.emissionDone k = { d with emits, att } := by
  obtain ⟨emits, att, h⟩ := (d.setEmit k { d.emitSt k with cur := none }).tryEmit_fields k
  exact ⟨emits, att, h⟩

/-- With no emission due, a stream whose emission has ended has none in progress. -/
theorem Dev.emissionDone_idle {d : Dev} {k : Nat} (h : (d.emitSt k).due = []) : ((d.emissionDone k).emitSt k).cur = none := by
  have hidle : d.emissionDone k = d.setEmit k { d.emitSt k with cur := none } := by
    simp [Dev.emissionDone, Dev.tryEmit, h]
  rw [hidle, Dev.emitSt_setEmit]

/-! Entries written at TAIL (R152, R156, R157) -/

/-- A ring that does not coalesce its interrupts counts no entry. -/
theorem Dev.countEntry_uncoalesced {d : Dev} {n : Nat} (h : d.rbit (rngReg n 0) 23 = false) (irq : Bool) :
    d.countEntry n irq = d := by
  simp [Dev.countEntry, h]

theorem rngReg_ne {n a b : Nat} (h : a ≠ b) : rngReg n a ≠ rngReg n b := fun heq => h (Nat.add_left_cancel heq)

/-- TAIL moves on; the ring does not coalesce its interrupts, so nothing else happens. -/
theorem Dev.countEntry_tail {d : Dev} {n : Nat} (h : d.rbit (rngReg n 0) 23 = false) (idx : Nat) (irq : Bool) :
    (d.wn (rngReg n 0x14) idx).countEntry n irq = d.wn (rngReg n 0x14) idx :=
  Dev.countEntry_uncoalesced (by rw [Dev.rbit, Dev.rr_wn_ne _ _ (rngReg_ne (by decide))]; exact h) irq

/-- The next completion of a ring with room is written at TAIL. -/
theorem Dev.postCpl_room {d : Dev} {r : Nat} {c : Cpl} (hnext : nextCpl r [] d.host.cpls = some c) (hen : d.ringEn r = true)
    (hkind : d.ringKind r = 1) (hroom : d.ringFull r = false) (hirq : d.rbit (rngReg r 0) 23 = false) :
    d.postCpl r = (Dev.emit { d with host := { d.host with cpls := d.host.cpls.erase c } }
      (.hostWrite (d.ringAddr r (d.ringTail r) 16) (c.bytes (d.ringPhase r (d.ringTail r))) false)).wn (rngReg r 0x14)
        (d.ringTail r + 1) := by
  simp only [Dev.postCpl, hnext, hen, hkind, hroom, beq_self_eq_true, Bool.and_self, Bool.not_true, Bool.false_eq_true,
    if_false]
  exact Dev.countEntry_tail (by exact hirq) _ _

/-- A full completion ring that has reported it keeps its completions. -/
theorem Dev.postCpl_full {d : Dev} {r : Nat} {c : Cpl} (hnext : nextCpl r [] d.host.cpls = some c) (hen : d.ringEn r = true)
    (hkind : d.ringKind r = 1) (hfull : d.ringFull r = true) (htold : d.rbit (rngReg r 4) 3 = true) : d.postCpl r = d := by
  simp [Dev.postCpl, hnext, hen, hkind, hfull, htold]

/-- The oldest event of a ring with room is written at TAIL, with the PHASE of its slot. -/
theorem Dev.postEvent_room {d : Dev} {r : Nat} {e : EvItem} (hnext : d.host.events.find? (fun x => x.ring == r) = some e)
    (hen : d.ringEn r = true) (hkind : d.ringKind r = 2) (hroom : d.ringFull r = false)
    (hirq : d.rbit (rngReg r 0) 23 = false) :
    d.postEvent r = (Dev.emit { d with host := { d.host with events := d.host.events.erase e } }
      (.hostWrite (d.ringAddr r (d.ringTail r) 64)
        (patch e.body 1 [if d.ringPhase r (d.ringTail r) then 0x80#8 else 0#8]) false)).wn (rngReg r 0x14)
        (d.ringTail r + 1) := by
  simp only [Dev.postEvent, Dev.writeEvent, hnext, hen, hkind, hroom, beq_self_eq_true, Bool.and_self, Bool.and_false,
    Bool.false_and, Bool.not_false, Bool.and_true, Bool.not_true, Bool.false_eq_true, if_false]
  exact Dev.countEntry_tail (by exact hirq) _ _

theorem Dev.ringTail_wn (d : Dev) (r idx : Nat) : (d.wn (rngReg r 0x14) idx).ringTail r = idx % 2 ^ 32 := d.rn_wn_same _ _

/-! Interrupts (R157) -/

/-- A timer that has run out sends its ring's unmasked vector. -/
theorem Dev.irqTimer_due {d : Dev} {r : Nat} (hon : d.rbit (rngReg r 0) 23 = true) (htime : d.rf (rngReg r 0x18) 31 16 ≠ 0)
    (hcount : (d.ring r).irqCount ≠ 0) (hdue : (d.ring r).irqSince + d.rf (rngReg r 0x18) 31 16 * 256 ≤ d.now)
    (hopen : ¬ d.rf (rngReg r 0) 10 0 ∈ d.host.masked) :
    d.irqTimer r = (d.setRing r { d.ring r with irqCount := 0 }).emit (.msix (d.rf (rngReg r 0) 10 0)) := by
  have hmsix (e : Dev) (v : Nat) (h : ¬ v ∈ e.host.masked) : e.msix v = e.emit (.msix v) := by
    simp [Dev.msix, h]
  unfold Dev.irqTimer
  dsimp only
  rw [if_pos ⟨hon, htime, hcount, hdue⟩]
  exact hmsix _ _ hopen

/-- The message of a pending vector is sent as it is unmasked. -/
theorem Dev.msixUnmask_pending {d : Dev} {v : Nat} (hmasked : v ∈ d.host.masked) (hpending : v ∈ d.host.pendingIrq) :
    d.msixUnmask v = Dev.emit { d with host := { d.host with
      masked := d.host.masked.erase v, pendingIrq := d.host.pendingIrq.erase v } } (.msix v) := by
  simp [Dev.msixUnmask, hmasked, hpending]

/-! Deliveries (R148) -/

/-- A delivery leaves its queue, and its stream goes on. -/
def Dev.delivered (d : Dev) (x : Delivery) : Dev :=
  let e : Dev := { d with host := { d.host with deliveries := d.host.deliveries.erase x } }
  match x.stream with | some k => e.emissionDone k | none => e

/-- Beside the streams and the attendance counters, a delivery that leaves its queue changes the queue alone. -/
theorem Dev.delivered_fields (d : Dev) (x : Delivery) : ∃ emits att,
    d.delivered x = { d with emits, att, host := { d.host with deliveries := d.host.deliveries.erase x } } := by
  unfold Dev.delivered
  dsimp only
  split
  · exact Dev.emissionDone_fields _ _
  · exact ⟨d.emits, d.att, rfl⟩

section Delivery
variable {d : Dev} {r : Nat} {x : Delivery} {o : Origin} {a cap : Nat} {rest : List (Origin × Nat × Nat)}
  (hnext : d.host.deliveries.find? (fun x => x.ring == r) = some x) (hen : d.ringEn r = true) (hkind : d.ringKind r = 1)
  (hbuf : (d.ring r).buffers = (o, a, cap) :: rest)
include hnext hen hkind hbuf

/-- A delivery that fits the oldest buffer is written there, and the buffer's descriptor completes. -/
theorem Dev.rxDeliver_fits (hfit : x.head.length + x.length + x.tail.length ≤ cap) :
    d.rxDeliver r = (((d.setRing r { d.ring r with buffers := rest }).emit
      (.hostWrite a (x.head ++ d.mem.readN x.addr x.length ++ x.tail) true)).delivered x).complete o none x.status
        (x.stream.getD 0) (x.head.length + x.length + x.tail.length) := by
  simp only [Dev.rxDeliver, hnext, hen, hkind, hbuf, Nat.not_lt.mpr hfit]
  rfl

/-- A delivery too long for the oldest buffer spends the buffer with LEN_RANGE. -/
theorem Dev.rxDeliver_short (hshort : cap < x.head.length + x.length + x.tail.length) :
    d.rxDeliver r = (d.setRing r { d.ring r with buffers := rest }).complete o none .lenRange 0
      (x.head.length + x.length + x.tail.length) := by
  simp only [Dev.rxDeliver, hnext, hen, hkind, hbuf, hshort]
  rfl

end Delivery

/-- What a delivery into a buffer leaves: one write to the host, the delivery and the buffer gone, the stream free for its
next. -/
theorem yields_rxDelivery_fits {s : State} {n : RingIx} {x : Delivery} {o : Origin} {a cap : Nat}
    {rest : List (Origin × Nat × Nat)} (hrun : s.running = true)
    (hnext : s.dev.host.deliveries.find? (fun x => x.ring == n.val) = some x) (hen : s.dev.ringEn n.val = true)
    (hkind : s.dev.ringKind n.val = 1) (hbuf : (s.dev.ring n.val).buffers = (o, a, cap) :: rest)
    (hfit : x.head.length + x.length + x.tail.length ≤ cap) :
    YieldsSome (.rxDelivery n) s (fun d =>
      d.sent = s.dev.sent ++ [.hostWrite a (x.head ++ s.dev.mem.readN x.addr x.length ++ x.tail) true]
      ∧ d.host.deliveries = s.dev.host.deliveries.erase x ∧ d.mem = s.dev.mem ∧ (d.ring n.val).buffers = rest
      ∧ ∀ k, x.stream = some k → (s.dev.emitSt k).due = [] → (d.emitSt k).cur = none) := by
  refine ⟨_, yields_of_onDev (f := fun d => d.rxDeliver n.val) rfl hrun, ?_⟩
  rw [Dev.rxDeliver_fits hnext hen hkind hbuf hfit]
  generalize hw : (s.dev.setRing n.val { s.dev.ring n.val with buffers := rest }).emit _ = w
  obtain ⟨emits, att, hdel⟩ := w.delivered_fields x
  obtain ⟨regs, host, hcpl, hqueue, hbufs⟩ := (w.delivered x).complete_fields o none x.status (x.stream.getD 0)
    (x.head.length + x.length + x.tail.length)
  rw [hcpl]
  refine ⟨?_, ?_, ?_, ?_, fun k hk hdue => ?_⟩
  · rw [hdel, ← hw]
    rfl
  · rw [hqueue, hdel, ← hw]
    rfl
  · rw [hdel, ← hw]
    rfl
  · refine (hbufs n.val).trans ?_
    rw [hdel, ← hw]
    exact congrArg RingSt.buffers (Dev.ring_setRing _ _ _)
  · show ((w.delivered x).emitSt k).cur = none
    rw [Dev.delivered, hk]
    exact Dev.emissionDone_idle (by rw [← hw]; exact hdue)

/-! Resets of the host link (R139) -/

theorem tfind_map {α β : Type} (f : Nat → α → β) (t : Tbl α) (n : Nat) :
    tfind (t.map (fun e => (e.1, f e.1 e.2))) n = (tfind t n).map (f n) := by
  induction t with
  | nil => rfl
  | cons e t ih =>
    obtain ⟨k, v⟩ := e
    simp only [List.map_cons, tfind]
    split
    · next h => rw [h]; rfl
    · exact ih

/-- A register after every EN has been cleared, by its address and its value before. -/
def clearedEn (a : Nat) (w : Word) : Word :=
  if RNG + 0x100000 ≤ a && a < FLD && a % 0x40 == 0 then w &&& 0x7FFFFFFF#32 else w

theorem Dev.linkReset_regs (d : Dev) (flr d3 : Bool) :
    (d.linkReset flr d3).regs = d.regs.map (fun e => (e.1, clearedEn e.1 e.2)) := by
  cases flr <;> cases d3 <;> rfl

theorem clearedEn_ctl {n : Nat} (h : n < 16384) (w : Word) : clearedEn (rngReg n 0) w = w &&& 0x7FFFFFFF#32 := by
  refine if_pos ?_
  simp only [Bool.and_eq_true, decide_eq_true_eq, beq_iff_eq]
  simp only [rngReg, RNG, FLD]
  omega

theorem clearedEn_tail (n : Nat) (w : Word) : clearedEn (rngReg n 0x14) w = w := by
  refine if_neg ?_
  simp only [Bool.and_eq_true, decide_eq_true_eq, beq_iff_eq]
  simp only [rngReg, RNG, FLD]
  omega

/-- Registers of rings read their reset values from the block's own map. -/
theorem specOf_rng {a : Nat} (hlo : RNG ≤ a) (hhi : a < FLD) : specOf a = specRng (a - RNG) := by
  have below {hi : Nat} (h : hi ≤ RNG) : ¬ a < hi := Nat.not_lt.mpr (Nat.le_trans h hlo)
  simp only [specOf, below (show GLB ≤ RNG by decide), below (show GLB + 0x10000 ≤ RNG by decide),
    below (show TTB ≤ RNG by decide), below (show PLT ≤ RNG by decide), below (show FLT ≤ RNG by decide),
    below (show SEC ≤ RNG by decide), below (show CTK ≤ RNG by decide), below (show MEM ≤ RNG by decide),
    below (show LNK ≤ RNG by decide), below (show ETH ≤ RNG by decide), below (show ATT ≤ RNG by decide),
    below (show GLB + 0x180000 ≤ RNG by decide), below (Nat.le_refl RNG), hhi, if_true, if_false]

/-- EN of a ring is 0 at reset (R143). -/
theorem ringCtl_reset {n : Nat} (h : n < 16384) : (BitVec.ofNat 32 (specOf (rngReg n 0)).reset).getLsbD 31 = false := by
  have hspec : specOf (rngReg n 0) = specRng (0x100000 + n * 0x40) := by
    rw [specOf_rng (by simp only [rngReg, RNG]; omega) (by simp only [rngReg, RNG, FLD]; omega)]
    exact congrArg specRng (by simp only [rngReg, RNG]; omega)
  have hlt : (specOf (rngReg n 0)).reset < 2 ^ 31 := by
    rw [hspec]
    simp only [specRng]
    rw [if_neg (by omega), if_pos (by omega)]
    dsimp only
    split <;> omega
  rw [BitVec.getLsbD_ofNat, Nat.testBit_lt_two_pow hlt, Bool.and_false]

/-- A reset of the host link disables every ring. -/
theorem Dev.linkReset_ringEn (d : Dev) (flr d3 : Bool) {n : Nat} (h : n < 16384) : (d.linkReset flr d3).ringEn n = false := by
  rw [Dev.ringEn, Dev.rbit, Dev.rr, Dev.linkReset_regs, tfind_map clearedEn]
  cases tfind d.regs (rngReg n 0) with
  | none => exact ringCtl_reset h
  | some w =>
    show (clearedEn (rngReg n 0) w).getLsbD 31 = false
    simp [clearedEn_ctl h]

theorem Dev.linkReset_ringTail (d : Dev) (flr d3 : Bool) (n : Nat) : (d.linkReset flr d3).ringTail n = d.ringTail n := by
  rw [Dev.ringTail, Dev.ringTail, Dev.rn, Dev.rn, Dev.rr, Dev.rr, Dev.linkReset_regs, tfind_map clearedEn]
  cases tfind d.regs (rngReg n 0x14) with
  | none => rfl
  | some w => exact congrArg BitVec.toNat (clearedEn_tail n w)

@[simp] theorem Dev.linkReset_mem (d : Dev) (flr d3 : Bool) : (d.linkReset flr d3).mem = d.mem := by
  cases flr <;> cases d3 <;> rfl

@[simp] theorem Dev.linkReset_plt (d : Dev) (flr d3 : Bool) : (d.linkReset flr d3).plt = d.plt := by
  cases flr <;> cases d3 <;> rfl

/-- What each reset of the host link leaves of what the host configured (log entries 6, 92). -/
theorem yields_hostLinkReset {s : State} (hrun : s.running = true) (e : HostLinkEvent) :
    YieldsSome (.hostLinkReset e) s (fun d =>
      (∀ n, n < 16384 → d.ringEn n = false) ∧ (∀ n, n < 16384 → d.ringTail n = s.dev.ringTail n)
      ∧ d.mem = s.dev.mem ∧ d.plt = s.dev.plt
      ∧ (e = .flr → d.host.msix = [] ∧ d.host.masked = [] ∧ d.host.pendingIrq = [])
      ∧ (e = .d3hot → d.host = s.dev.host)
      ∧ (e = .linkDown ∨ e = .hotReset → d.host = { s.dev.host with bar4Log := 36, aerUr := false })) := by
  refine ⟨_, yields_of_onDev (f := fun d => d.linkReset (e == .flr) (e == .d3hot)) rfl hrun,
    fun n hn => Dev.linkReset_ringEn _ _ _ hn, fun n _ => Dev.linkReset_ringTail _ _ _ n, Dev.linkReset_mem _ _ _,
    Dev.linkReset_plt _ _ _, ?_, ?_, ?_⟩
  · rintro rfl
    exact ⟨rfl, rfl, rfl⟩
  · rintro rfl
    rfl
  · rintro (rfl | rfl)
    · rfl
    · rfl

/-! PERST# (R414, R418) -/

/-- PERST# goes low: the host link is reset. -/
theorem State.perst_low {s : State} (h : s.care.perstLow = false) :
    s.perst true = { s with care := { s.care with perstLow := true }, dev := s.dev.linkReset false } := by
  simp [State.perst, h, State.setDev]

/-- PERST# goes high in a boot that waits for it: stage 6 is reached. -/
theorem State.perst_high {s : State} (hrun : s.running = true) (hstage : s.care.run.stage = 5)
    (hlinks : s.care.run.linksDone = true) :
    s.perst false = ({ s with care := { s.care with perstLow := false } } : State).reachHost := by
  have hrun' : ({ s with care := { s.care with perstLow := false } } : State).running = true := hrun
  simp [State.perst, hrun', hstage, hlinks]

/-- A boot that has reached stage 6 goes on no further while ring 0 is disabled. -/
theorem State.settle_bootTo_six {s : State} (h : s.dev.ringEn 0 = false) : (s.bootTo 6).settle = s.bootTo 6 := by
  have hen : (s.bootTo 6).dev.ringEn 0 = false := h
  have hstage : (s.bootTo 6).care.run.stage = 6 := rfl
  simp [State.settle, hen, hstage]

/-- Stage 6 is reached with PERST# as it is. -/
theorem State.reachHost_of_ringOff {s : State} (h : s.dev.ringEn 0 = false) :
    s.reachHost.care.perstLow = s.care.perstLow ∧ s.reachHost.care.run.stage = 6 := by
  unfold State.reachHost
  dsimp only
  split
  · rw [State.settle_bootTo_six (by exact h)]
    exact ⟨rfl, rfl⟩
  · rw [State.settle_bootTo_six (by exact h)]
    exact ⟨rfl, rfl⟩

/-- Settles O39: entries at TAIL, interrupts, deliveries, and the resets of the link, each by its rule. An FLR leaves every vector
unmasked by the model's choice (log entry 6). -/
theorem hostLink : Obligations.HostLink := by
  refine ⟨fun s n => ⟨?completion, ?full, ?event, ?timer, ?unmask, ?delivery⟩, fun s => ⟨?reset, ?perstLow, ?perstHigh⟩⟩
  case completion =>
    intro c hrun hnext hen hkind hroom hirq
    refine ⟨_, yields_of_onDev (f := fun d => d.postCpl n.val) rfl hrun, ?_⟩
    rw [Dev.postCpl_room hnext hen hkind hroom hirq]
    exact ⟨rfl, Dev.ringTail_wn _ _ _, rfl, fun a ha => Dev.rr_wn_ne _ _ ha, rfl⟩
  case full =>
    intro c hrun hnext hen hkind hfull htold
    have h := yields_of_onDev (c := .completionPost n) (f := fun d => d.postCpl n.val) rfl hrun
    rwa [Dev.postCpl_full hnext hen hkind hfull htold] at h
  case event =>
    intro e hrun hnext hen hkind hroom hirq
    refine ⟨_, yields_of_onDev (f := fun d => d.postEvent n.val) rfl hrun, ?_⟩
    rw [Dev.postEvent_room hnext hen hkind hroom hirq]
    exact ⟨rfl, Dev.ringTail_wn _ _ _, rfl, _, rfl, rfl⟩
  case timer =>
    intro hrun hon htime hcount hdue hopen
    rw [← Dev.irqTimer_due hon htime hcount hdue hopen]
    exact yields_of_onDev (f := fun d => d.irqTimer n.val) rfl hrun
  case unmask =>
    intro v hup hmasked hpending
    rw [← Dev.msixUnmask_pending hmasked hpending]
    exact yields_of_onHost (f := fun d => d.msixUnmask v.toNat) rfl hup
  case delivery =>
    intro x o a cap rest hrun hnext hen hkind hbuf
    refine ⟨yields_rxDelivery_fits hrun hnext hen hkind hbuf, fun hshort => ?_⟩
    rw [← Dev.rxDeliver_short hnext hen hkind hbuf hshort]
    exact yields_of_onDev (f := fun d => d.rxDeliver n.val) rfl hrun
  case reset => exact fun e hrun => yields_hostLinkReset hrun e
  case perstLow =>
    intro h
    exact ⟨_, congrArg Host.Outcome.next (State.perst_low h), rfl, rfl, fun n hn => Dev.linkReset_ringEn _ _ _ hn,
      Dev.linkReset_mem _ _ _⟩
  case perstHigh =>
    intro hrun hstage hlinks hen
    obtain ⟨hpin, hsix⟩ := State.reachHost_of_ringOff (s := { s with care := { s.care with perstLow := false } }) hen
    exact ⟨_, congrArg Host.Outcome.next (State.perst_high hrun hstage hlinks), hpin, hsix⟩

end Sys2Proof.Machine
end

section
/-! The descriptors of mapped rings and of ingest channels (R147 to R149, R160): data in place, buffers, compression jobs. -/
namespace Sys2Proof.Machine

/-- A descriptor at the front of a ring that must wait stays there. -/
theorem Dev.descriptor_waits {d : Dev} {n op : Nat} {f : Fetched} {b : Bytes} (h : d.AtFront n op f b)
    {g : Dev → Origin → Bytes → Option Dev} (hg : g (d.taken n) (originOf n f) b = none) : d.descriptor n op g = d.skim n := by
  obtain ⟨index, serial, div, desc⟩ := f
  obtain ⟨hfront, rfl, hop⟩ := h
  unfold Dev.taken at hg
  simp [Dev.descriptor, hfront, hop, hg]

/-! Data in place (R147, R160) -/

/-- Outside an ingest channel the task of a descriptor is that of its ring-map entry. -/
theorem Dev.dataTask_mapped {m : RingMap} (h : 16 ≤ m.channel) (d : Dev) (o : Origin) (b : Bytes) (addr : Nat) :
    d.dataTask o m b addr = d.send m.quad 0
      { pkt := mkPkt m.quad m.role 0 0xFFFF m.lane (m.slot + 1) m.slot m.pri (Dsc.tag b) addr (Dsc.length b) (Dsc.arg b)
        sender := 0xFFFF, origin := some o } := by
  simp [Dev.dataTask, Nat.not_lt.mpr h]

section DataIn
variable {d e : Dev} {o : Origin} {m : RingMap} {b : Bytes} {addr : Nat} {move : Dev → Option Dev}

theorem Dev.dataIn_mapped (h : 16 ≤ m.channel) (hmove : move d = some e) :
    d.dataIn o m b addr move = some (e.dataTask o m b addr) := by
  simp [Dev.dataIn, h, hmove]

theorem Dev.dataIn_samples (h : m.channel < 16) (huse : d.chanUse o m b = .data) (hmove : move d = some e) :
    d.dataIn o m b addr move = some (e.dataTask o m b addr) := by
  simp [Dev.dataIn, Nat.not_le.mpr h, huse, hmove]

theorem Dev.dataIn_bad (h : m.channel < 16) (huse : d.chanUse o m b = .bad) :
    d.dataIn o m b addr move = some (d.refuse o .descInvalid 0) := by
  simp [Dev.dataIn, Nat.not_le.mpr h, huse]

end DataIn

/-- COPY_IN's data as it is put in place; none of it for LENGTH 0. -/
def Dev.copied (d : Dev) (b : Bytes) (addr : Nat) (x : Bytes) : Dev :=
  if Dsc.length b = 0 then d else d.mwrite addr (slice x 0 (Dsc.length b))

/-! The command of the front descriptor -/

section Front
variable {s : State} {n : RingIx} {f : Fetched} {b : Bytes} (hrun : s.running = true)
include hrun

/-- A command that executes the front descriptor yields what its body answers. -/
theorem yields_of_front {c : Instr} {op : Nat} {g : Dev → Origin → Bytes → Option Dev}
    (hexec : exec c s = .next (s.onDev (fun d => d.descriptor n.val op g))) (hfront : s.dev.AtFront n.val op f b) {e : Dev}
    (he : g (s.dev.taken n.val) (originOf n.val f) b = some e) : Yields c s (e.skim n.val) := by
  have h := yields_of_onDev hexec hrun
  rwa [Dev.descriptor_atFront (g := g) hfront he] at h

/-- A command whose front descriptor must wait leaves it where it is. -/
theorem yields_of_front_waits {c : Instr} {op : Nat} {g : Dev → Origin → Bytes → Option Dev}
    (hexec : exec c s = .next (s.onDev (fun d => d.descriptor n.val op g))) (hfront : s.dev.AtFront n.val op f b)
    (hg : g (s.dev.taken n.val) (originOf n.val f) b = none) : Yields c s (s.dev.skim n.val) := by
  have h := yields_of_onDev hexec hrun
  rwa [Dev.descriptor_waits (g := g) hfront hg] at h

variable {m : RingMap} (hmap : (s.dev.taken n.val).ringMapOf n.val = some m)
include hmap

/-- A COPY_IN that passes its checks answers what its ring-map entry makes of the data in place. -/
theorem yields_copyIn {addr : Nat} (x : Bytes) (hfront : s.dev.AtFront n.val 1 f b)
    (hok : (s.dev.taken n.val).dataChecks b (zeroAt b 44 20) = .ok addr) {e : Dev}
    (he : ∀ move : Dev → Option Dev, move (s.dev.taken n.val) = some ((s.dev.taken n.val).copied b addr x) →
      (s.dev.taken n.val).dataIn (originOf n.val f) m b addr move = some e) :
    Yields (.copyIn n (some x)) s (e.skim n.val) := by
  refine yields_of_front hrun rfl hfront ?_
  simp only [hok, hmap]
  refine he _ ?_
  unfold Dev.copied
  split <;> rfl

/-- An IN_PLACE that passes its checks answers what its ring-map entry makes of the data. -/
theorem yields_inPlace {addr : Nat} (hfront : s.dev.AtFront n.val 2 f b)
    (hok : (s.dev.taken n.val).dataChecks b (zeroAt b 16 8 && zeroAt b 44 20) = .ok addr) {e : Dev}
    (he : (s.dev.taken n.val).dataIn (originOf n.val f) m b addr some = some e) : Yields (.inPlace n) s (e.skim n.val) := by
  refine yields_of_front hrun rfl hfront ?_
  simp only [hok, hmap]
  exact he

/-! Buffers (R148) -/

section Buffer
variable (hfront : s.dev.AtFront n.val 3 f b) (hhead : Dsc.headOk b = true) (hzero : zeroAt b 28 36 = true)
  (hlen : Dsc.length b ≠ m32)
include hfront hhead hzero hlen

/-- A buffer is queued on the completion ring of its ring's map entry, in fetch order. -/
theorem yields_rxBuffer_queued (hch : 16 ≤ m.channel) :
    let d := s.dev.taken n.val
    Yields (.rxBuffer n) s ((d.setRing m.cplRing { d.ring m.cplRing with
      buffers := insertBy (fun x y => x.1.serial ≤ y.1.serial) (originOf n.val f, Dsc.host b, Dsc.length b)
        (d.ring m.cplRing).buffers }).skim n.val) := by
  refine yields_of_front hrun rfl hfront ?_
  simp only [hmap, hhead, hzero, hlen, Nat.not_lt.mpr hch]
  rfl

/-- The ring of an ingest channel takes no buffer. -/
theorem yields_rxBuffer_channel (hch : m.channel < 16) :
    Yields (.rxBuffer n) s (((s.dev.taken n.val).refuse (originOf n.val f) .descInvalid 0).skim n.val) := by
  refine yields_of_front hrun rfl hfront ?_
  simp only [hmap, hhead, hzero, hlen, hch]
  rfl

end Buffer
end Front

/-! What a quadrant's promotion leaves (R88, R92) -/

theorem Dev.nameTags_quads (d : Dev) (ops : List ColOp) (tag : Tag) : (d.nameTags ops tag).quads = d.quads := by
  have hname (e : Dev) (unit stream : Nat) : (e.nameTag unit stream tag).quads = e.quads := by
    unfold Dev.nameTag
    dsimp only
    split <;> rfl
  unfold Dev.nameTags
  split
  · rfl
  · refine foldl_frame Dev.quads (fun e o => ?_) ops d
    split
    · split
      · exact hname _ _ _
      · rfl
    · rfl

theorem Dev.nameHeld_quads (d : Dev) (q : Nat) : (d.nameHeld q).quads = d.quads :=
  foldl_frame Dev.quads (fun _ _ => Dev.nameTags_quads _ _ _) _ d

theorem Dev.noteMax_quads (d : Dev) (q : Nat) : (d.noteMax q).quads = d.quads := by
  refine (foldl_frame Dev.quads (fun e p => ?_) (List.range 8) _).trans rfl
  dsimp only
  split <;> rfl

theorem Dev.watchDepth_quads (d : Dev) (q : Nat) : (d.watchDepth q).quads = d.quads := by
  refine foldl_frame Dev.quads (fun e x => ?_) d.ichs d
  dsimp only
  split
  · rfl
  · generalize (e.assists x.1 && _) = on
    split <;> rfl

/-- A promotion changes the phase of a quadrant's tasks alone. -/
theorem Dev.promote_tasks (d : Dev) (q : Nat) :
    ((d.promote q).quad q).tasks = Machine.promote ((d.nameHeld q).gated q) ((d.nameHeld q).cyc q) [] (d.quad q).tasks := by
  have hquad : (d.nameHeld q).quad q = d.quad q := by rw [Dev.quad, Dev.nameHeld_quads, Dev.quad]
  unfold Dev.promote
  dsimp only
  rw [Dev.quad, Dev.watchDepth_quads, Dev.noteMax_quads, ← Dev.quad, Dev.quad_setQuad, hquad]

theorem promote_mem {gated : Task → Bool} {c : Nat} {t : Task} : ∀ {l : List Task} (blocked : List Nat), t ∈ l →
    ∃ ph, { t with phase := ph } ∈ promote gated c blocked l := by
  intro l
  induction l with
  | nil => exact fun _ h => absurd h List.not_mem_nil
  | cons u l ih =>
    intro blocked h
    rcases List.mem_cons.mp h with rfl | h
    · simp only [promote]
      split
      · exact ⟨_, List.mem_cons_self⟩
      · exact ⟨_, List.mem_cons_self⟩
    · obtain ⟨ph, hph⟩ := ih _ h
      exact ⟨ph, List.mem_cons_of_mem _ hph⟩

/-- What is so of a task of a quadrant, whatever its phase, is so of a task there after a promotion. -/
theorem Dev.promote_exists {d : Dev} {q : Nat} {p : Task → Prop} (hp : ∀ t ph, p t → p { t with phase := ph })
    (h : ∃ t ∈ (d.quad q).tasks, p t) : ∃ t ∈ ((d.promote q).quad q).tasks, p t := by
  obtain ⟨t, ht, hpt⟩ := h
  obtain ⟨ph, hph⟩ := promote_mem (gated := (d.nameHeld q).gated q) (c := (d.nameHeld q).cyc q) [] ht
  exact ⟨_, by rwa [Dev.promote_tasks], hp t ph hpt⟩

/-! Compression jobs (R149, R331) -/

/-- The accounting of a quadrant's cycles changes no register, and of the quadrant what it has counted alone. -/
theorem Dev.accrue_frame (d : Dev) (q : Nat) :
    (d.accrue q).regs = d.regs ∧ (d.accrue q).quad q = { d.quad q with counted := d.cyc q } := by
  refine ⟨?_, Dev.quad_setQuad _ _ _⟩
  unfold Dev.accrue
  dsimp only
  split <;> split <;> rfl

/-- A job's room in a quadrant, and the packets of its ring on their way there, are as before the accounting. -/
theorem Dev.accrue_room (d : Dev) (q n : Nat) :
    (d.accrue q).rf (qdrReg q 8) 12 0 = d.rf (qdrReg q 8) 12 0 ∧ ((d.accrue q).quad q).occ = (d.quad q).occ
      ∧ (d.accrue q).ringUnderway q n = d.ringUnderway q n := by
  obtain ⟨hregs, hquad⟩ := d.accrue_frame q
  refine ⟨?_, ?_, ?_⟩
  · rw [Dev.rf, Dev.rn, Dev.rr, hregs]
    rfl
  · rw [hquad]
    rfl
  · rw [Dev.ringUnderway, hquad]
    rfl

section Job
variable {s : State} {n : RingIx} {f : Fetched} {b : Bytes} {m : RingMap} (hrun : s.running = true)
  (hmap : (s.dev.taken n.val).ringMapOf n.val = some m) (hfront : s.dev.AtFront n.val 4 f b) (hhead : Dsc.headOk b = true)
  (hjob : (s.dev.taken n.val).jobChecks b = none) (hch : 16 ≤ m.channel)
include hrun hmap hfront hhead hjob hch

/-- A compression job takes an entry once there is room and none of its ring's packets is on its way. -/
theorem yields_cmpJob_entry
    (hroom : (s.dev.taken n.val).rf (qdrReg m.quad 8) 12 0 < 4096 - ((s.dev.taken n.val).quad m.quad).occ)
    (hway : (s.dev.taken n.val).ringUnderway m.quad n.val = false) :
    ∃ e : Dev, Yields (.cmpJob n) s (e.skim n.val)
      ∧ ∃ t ∈ (e.quad m.quad).tasks, t.role = 255 ∧ t.params = b ∧ t.origin = some (originOf n.val f) ∧ t.lane = m.lane
        ∧ t.idx.isSome = true := by
  obtain ⟨hfree, hocc, hunder⟩ := (s.dev.taken n.val).accrue_room m.quad n.val
  refine ⟨?after, yields_of_front hrun rfl hfront ?body, ?entry⟩
  case body =>
    simp only [hmap, hhead, hjob, hfree, hocc, hunder, Nat.not_lt.mpr hch, Nat.not_le.mpr hroom, hway]
    rfl
  case entry =>
    refine Dev.promote_exists (fun _ _ h => h) ?_
    show ∃ t ∈ ((Dev.setQuad _ _ _).quad _).tasks, _
    rw [Dev.quad_setQuad]
    exact ⟨_, List.mem_append_right _ (List.mem_singleton_self _), rfl, rfl, rfl, rfl, rfl⟩

/-- A compression job waits in front for room and for its ring's packets on their way (log entry 62). -/
theorem yields_cmpJob_waits
    (hwait : ¬ (s.dev.taken n.val).rf (qdrReg m.quad 8) 12 0 < 4096 - ((s.dev.taken n.val).quad m.quad).occ
      ∨ (s.dev.taken n.val).ringUnderway m.quad n.val = true) : Yields (.cmpJob n) s (s.dev.skim n.val) := by
  obtain ⟨hfree, hocc, hunder⟩ := (s.dev.taken n.val).accrue_room m.quad n.val
  refine yields_of_front_waits hrun rfl hfront ?_
  simp only [hmap, hhead, hjob, hfree, hocc, hunder, Nat.not_lt.mpr hch, hwait.imp_left Nat.not_lt.mp]
  rfl

end Job

/-- Settles O36: each descriptor by the rule of the front descriptor. That OPCOUNT is SLOT + 1 and that a job waits in front for
its ring's packets are the model's choices (log entries 52, 62). -/
theorem mappedRingDescriptors : Obligations.MappedRingDescriptors := by
  intro s n f b m hrun
  dsimp only
  intro hmap
  refine ⟨fun addr x hfront hok => ⟨?copyMapped, ?copySamples, ?copyBad⟩,
    fun addr hfront hok => ⟨?placeMapped, ?placeSamples, ?placeBad⟩,
    fun hfront hhead hzero hlen => ⟨?queued, ?notTaken⟩, fun hfront hhead hjob => ⟨?entry, ?waits⟩⟩
  case copyMapped =>
    intro hch
    rw [← Dev.dataTask_mapped hch _ (originOf n.val f) b addr]
    exact yields_copyIn hrun hmap x hfront hok (fun _ hmove => Dev.dataIn_mapped hch hmove)
  case copySamples =>
    exact fun hch huse => yields_copyIn hrun hmap x hfront hok (fun _ hmove => Dev.dataIn_samples hch huse hmove)
  case copyBad => exact fun hch huse => yields_copyIn hrun hmap x hfront hok (fun _ _ => Dev.dataIn_bad hch huse)
  case placeMapped =>
    intro hch
    rw [← Dev.dataTask_mapped hch _ (originOf n.val f) b addr]
    exact yields_inPlace hrun hmap hfront hok (Dev.dataIn_mapped hch rfl)
  case placeSamples =>
    exact fun hch huse => yields_inPlace hrun hmap hfront hok (Dev.dataIn_samples hch huse rfl)
  case placeBad => exact fun hch huse => yields_inPlace hrun hmap hfront hok (Dev.dataIn_bad hch huse)
  case queued => exact fun hch => yields_rxBuffer_queued hrun hmap hfront hhead hzero hlen hch
  case notTaken => exact fun hch => yields_rxBuffer_channel hrun hmap hfront hhead hzero hlen hch
  case entry => exact fun hch hroom hway => yields_cmpJob_entry hrun hmap hfront hhead hjob hch hroom hway
  case waits => exact fun hch hwait => yields_cmpJob_waits hrun hmap hfront hhead hjob hch hwait

end Sys2Proof.Machine
end

section
/-! Table intake and the epoch cache (R161, R174, R175, R178): what faults, writes of memory and the placing of samples leave of the
schedulers, what a promotion leaves of the assist tickets, and a write of a channel's CMD register. -/
namespace Sys2Proof.Machine

/-! Reports and memory operations leave the schedulers alone -/

@[simp] theorem Dev.msix_quads (d : Dev) (v : Nat) : (d.msix v).quads = d.quads := by
  unfold Dev.msix
  split <;> rfl

@[simp] theorem Dev.fltIrq_quads (d : Dev) : d.fltIrq.quads = d.quads := by
  unfold Dev.fltIrq
  split
  · exact Dev.msix_quads _ _
  · rfl

@[simp] theorem Dev.offer_quads (d : Dev) (ring type source : Nat) (waits : Bool) (payload : Bytes) :
    (d.offer ring type source waits payload).quads = d.quads := by
  unfold Dev.offer
  dsimp only
  split <;> rfl

@[simp] theorem Dev.ethLinkDown_quads (d : Dev) (n : Nat) : (d.ethLinkDown n).quads = d.quads := by
  unfold Dev.ethLinkDown
  dsimp only
  split <;> rfl

@[simp] theorem Dev.isolate_quads (d : Dev) : d.isolate.quads = d.quads := by
  simp only [Dev.isolate, Dev.ethDown, Dev.emit, apply_ite Dev.quads, Dev.ethLinkDown_quads, ite_self]
  exact foldl_frame Dev.quads (fun e p => by split <;> rfl) _ d

@[simp] theorem Dev.faultCore_quads (d : Dev) (s : Nat) (x : FaultArgs) : (d.faultCore s x).1.quads = d.quads := by
  simp only [Dev.faultCore, apply_ite Prod.fst, apply_ite Dev.quads, Dev.fltIrq_quads, Dev.offer_quads, Dev.isolate_quads,
    Dev.wn_quads, Dev.wbit_quads, ite_self]

@[simp] theorem Dev.fault_quads (d : Dev) (s unit detail addr aborted : Nat) :
    (d.fault s unit detail addr aborted).quads = d.quads := by
  unfold Dev.fault Dev.stageEvent
  dsimp only
  split <;> simp

@[simp] theorem Dev.corrected_quads (d : Dev) (ch c dev : Nat) : (d.corrected ch c dev).quads = d.quads := by
  unfold Dev.corrected
  dsimp only
  split
  · exact Dev.fault_quads _ _ _ _ _ _
  · rfl

@[simp] theorem Dev.uncorrectable_quads (d : Dev) (ch c a : Nat) : (d.uncorrectable ch c a).quads = d.quads := by
  refine (Dev.fault_quads _ _ _ _ _ _).trans ?_
  rw [Dev.wbit_quads]
  split <;> rfl

@[simp] theorem Dev.meetLine_quads (d : Dev) (a mark : Nat) : (d.meetLine a mark).1.quads = d.quads := by
  unfold Dev.meetLine
  dsimp only
  split
  · exact Dev.corrected_quads _ _ _ _
  · split
    · exact Dev.uncorrectable_quads _ _ _ _
    · rfl

@[simp] theorem Dev.touch_quads (d : Dev) (a n : Nat) : (d.touch a n).1.quads = d.quads := by
  unfold Dev.touch
  refine foldl_frame (fun x : Dev × Bool => x.1.quads) (fun x l => ?_) _ _
  exact x.1.meetLine_quads _ _

@[simp] theorem Dev.touchEach_quads (d : Dev) (base : Nat) (l : List (Nat × Nat)) : (d.touchEach base l).1.quads = d.quads := by
  unfold Dev.touchEach
  exact foldl_frame (fun x : Dev × List Bool => x.1.quads) (fun x _ => Dev.touch_quads x.1 _ _) _ _

@[simp] theorem Dev.fetchData_quads (d : Dev) (a n : Nat) : (d.fetchData a n).1.quads = d.quads := Dev.touch_quads d a n

@[simp] theorem Dev.lineWrites_quads (d : Dev) (a n : Nat) : (d.lineWrites a n).quads = d.quads := by
  unfold Dev.lineWrites
  dsimp only
  rw [foldl_frame Dev.quads]
  · split <;> rfl
  · intro e ch
    split
    · rfl
    · split <;> rfl

@[simp] theorem Dev.mwrite_quads (d : Dev) (a : Nat) (b : Bytes) : (d.mwrite a b).quads = d.quads := by
  unfold Dev.mwrite
  dsimp only
  split
  · exact Dev.lineWrites_quads _ _ _
  · rfl

@[simp] theorem Dev.scramble_quads (d : Dev) (lo len : Nat) : (d.scramble lo len).quads = d.quads := by
  unfold Dev.scramble
  split <;> rfl

theorem Dev.takeSlot_quads {d e : Dev} {id n a : Nat} (h : d.takeSlot id n = some (a, e)) : e.quads = d.quads := by
  unfold Dev.takeSlot at h
  split at h
  · cases h; rfl
  · cases h

/-! So does the placing of samples (R161, R168 to R171) -/

@[simp] theorem Dev.setIch_quads (d : Dev) (c : Nat) (x : IchSt) : (d.setIch c x).quads = d.quads := rfl

@[simp] theorem Dev.countFill_quads (d : Dev) (c : Nat) (f : SlotFill) : (d.countFill c f).quads = d.quads := by
  unfold Dev.countFill
  split
  · rfl
  · split <;> rfl

@[simp] theorem Dev.cacheAppend_quads (d : Dev) (c : Nat) (s : Sample) : (d.cacheAppend c s).quads = d.quads := by
  unfold Dev.cacheAppend
  dsimp only
  split
  · rfl
  · split
    · rfl
    · exact (Dev.mwrite_quads _ _ _).trans (Dev.mwrite_quads _ _ _)

@[simp] theorem Dev.poolCopy_quads (d : Dev) (c : Nat) (s : Sample) : (d.poolCopy c s).quads = d.quads := by
  unfold Dev.poolCopy
  dsimp only
  split
  · split
    · exact Dev.scramble_quads _ _ _
    · rfl
  · rfl

theorem Dev.placeSample_quads {d e : Dev} {c seat : Nat} {item : Option Sample} (h : d.placeSample c seat item = some e) :
    e.quads = d.quads := by
  unfold Dev.placeSample at h
  dsimp only at h
  split at h
  · cases h
  · next b d1 hready =>
    have hd1 : d1.quads = d.quads := by
      split at hready
      · cases hready; rfl
      · split at hready
        · next hslot => cases hready; exact (Dev.takeSlot_quads hslot :)
        · cases hready
    cases h
    rw [Dev.setIch_quads]
    split
    · split <;> simp [hd1]
    · simp [hd1]

@[simp] theorem Dev.closeOpen_quads (d : Dev) (c : Nat) (short : Bool) : (d.closeOpen c short).1.quads = d.quads := by
  unfold Dev.closeOpen Dev.writeBatch
  dsimp only
  split
  · rfl
  · exact Dev.mwrite_quads _ _ _

theorem placeItems_quads (c seat : Nat) (items : List (Option Sample)) :
    ∀ (d : Dev) (rs : List Result), (placeItems c seat items d rs).2.1.quads = d.quads := by
  induction items with
  | nil => exact fun _ _ => rfl
  | cons i t ih =>
    intro d rs
    rw [placeItems]
    split
    · rfl
    · next e he =>
      rw [← Dev.placeSample_quads he]
      dsimp only
      split
      · split
        · exact (ih _ _).trans (Dev.closeOpen_quads _ _ _)
        · exact ih _ _
      · exact ih _ _

/-! And the reading of a descriptor's data (R163, R164, R178) -/

@[simp] theorem Dev.readArrow_quads (d : Dev) (x : IchSt) (addr : Nat) (raw : Bytes) : (d.readArrow x addr raw).1.quads = d.quads :=
  Dev.touchEach_quads _ _ _

@[simp] theorem Dev.readParquet_quads (d : Dev) (x : IchSt) (arg addr : Nat) (raw : Bytes) :
    (d.readParquet x arg addr raw).1.quads = d.quads := by
  unfold Dev.readParquet
  dsimp only
  split
  · exact Dev.touch_quads _ _ _
  · exact Dev.touchEach_quads _ _ _

@[simp] theorem Dev.readTask_quads (d : Dev) (x : IchSt) (t : Task) : (d.readTask x t).1.quads = d.quads := by
  unfold Dev.readTask
  split
  · rfl
  · next p _ =>
    split
    · rfl
    · have hown : (if fld x.params 1 1 = 0 then d.readArrow x (Pkt.payload p) (d.mread (Pkt.payload p) (Pkt.length p))
          else d.readParquet x t.arg (Pkt.payload p) (d.mread (Pkt.payload p) (Pkt.length p))).1.quads = d.quads := by
        split <;> simp
      dsimp only
      split
      · split
        · split
          · exact hown
          · rw [Dev.fetchData_quads]
        · exact hown
      · exact hown

theorem Dev.beginDecode_quads (d : Dev) (c : Nat) (t : Task) : (d.beginDecode c t).quads = d.quads := by
  unfold Dev.beginDecode
  dsimp only
  split <;> exact Dev.readTask_quads d _ t

/-! A task of a quadrant under an update and a promotion -/

/-- The task of a number after an update that keeps numbers. -/
theorem Dev.task_updTask (d : Dev) (q uid : Nat) {f : Task → Task} (hf : ∀ t, (f t).uid = t.uid) :
    (d.updTask q uid f).task q uid = (d.task q uid).map f := by
  unfold Dev.task Dev.updTask
  rw [Dev.quad_setQuad]
  induction (d.quad q).tasks with
  | nil => rfl
  | cons t l ih =>
    by_cases h : t.uid = uid
    · simp [h, hf]
    · simpa [h] using ih

theorem find?_promote (gated : Task → Bool) (c uid : Nat) {t : Task} : ∀ (l : List Task) (blocked : List Nat),
    l.find? (fun t => t.uid == uid) = some t →
    ∃ ph, (promote gated c blocked l).find? (fun t => t.uid == uid) = some { t with phase := ph } := by
  intro l
  induction l with
  | nil => exact fun _ h => nomatch h
  | cons u l ih =>
    intro blocked h
    obtain ⟨ph, blocked', hcons⟩ : ∃ ph blocked', promote gated c blocked (u :: l)
        = { u with phase := ph } :: promote gated c blocked' l := by
      simp only [promote]
      split <;> exact ⟨_, _, rfl⟩
    rw [hcons]
    by_cases hu : u.uid = uid
    · rw [List.find?_cons_of_pos (by simpa using hu)] at h ⊢
      cases h
      exact ⟨ph, rfl⟩
    · rw [List.find?_cons_of_neg (by simpa using hu)] at h ⊢
      exact ih _ h

/-- A promotion changes nothing of a task but its phase. -/
theorem Dev.task_promote {d : Dev} {q uid : Nat} {t : Task} (h : d.task q uid = some t) :
    ∃ ph, (d.promote q).task q uid = some { t with phase := ph } := by
  rw [Dev.task, Dev.promote_tasks]
  exact find?_promote _ _ _ _ _ h

/-- The running task of a seat stands under its number in its quadrant. -/
theorem Dev.task_of_atWork {d : Dev} {s role q : Nat} {t : Task} (h : d.atWork s role = some (q, t)) :
    d.task q t.uid = some t := by
  have hrun : d.running s = some (q, t) := by
    unfold Dev.atWork at h
    split at h
    · next q' t' hr =>
      split at h
      · cases h; exact hr
      · cases h
    · cases h
  obtain ⟨⟨quad, uid⟩, -, hfind⟩ := List.mem_filterMap.mp (List.mem_of_find?_eq_some hrun)
  obtain ⟨t', ht', heq⟩ := Option.map_eq_some_iff.mp hfind
  cases heq
  have huid : t.uid = uid := beq_iff_eq.mp (List.find?_some (p := fun t : Task => t.uid == uid) ht')
  rwa [huid]

/-- The task that ends is as it was, with its status and its results. -/
theorem Dev.task_workDone {d : Dev} {q : Nat} {t : Task} (h : d.task q t.uid = some t) (st : Status) (rs : List Result) :
    (d.workDone q t.uid st rs).task q t.uid = some (t.did st rs) := by
  unfold Dev.workDone
  rw [Dev.task_updTask]
  · rw [h]
    rfl
  · exact fun _ => rfl

section Placed
variable {d d1 d2 : Dev} {s c : Nat} {t : Task} {w : IchWork} {rs : List Result}
  (hd1 : d1 = if (d.ich c).work.map (·.uid) = some t.uid then d else d.beginDecode c t)
  (hplace : placeItems c s w.items d1 w.results = ([], d2, rs))
include hd1 hplace

/-- The schedulers are as before once a task's descriptor has been read and its items placed. -/
theorem Dev.quads_of_placed : d2.quads = d.quads := by
  calc d2.quads = (placeItems c s w.items d1 w.results).2.1.quads := by rw [hplace]
    _ = d1.quads := placeItems_quads c s w.items d1 w.results
    _ = d.quads := by
      rw [hd1]
      split
      · rfl
      · exact Dev.beginDecode_quads _ _ _

/-- A DECODE task whose items have all found their slots, with the replay not in force and no batch to close, ends (R161). -/
theorem Dev.decodeTask_of_placed {q : Nat} (hc : fld t.params 0 1 = c) (hwork : d.atWork s 1 = some (q, t))
    (hen : d.rbit (ichReg c 0) 31 = true) (hlane : d.laneBefore q t = false) (hw : (d1.ich c).work = some w)
    (hexp : w.toExpand = []) (hpipe : w.inPipe = 0) (hmode : d2.cacheMode c ≠ 2) (hflush : bit t.arg 30 = false) :
    d.decodeTask s = (d2.setIch c { d2.ich c with work := none }).workDone q t.uid w.status rs := by
  have henter : d1.expandEnter c = d1 := by simp [Dev.expandEnter, hw, hexp]
  have hlast (x : IchSt) (u : Nat) : ((d2.setIch c x).cacheMode c == 2 && !(d2.setIch c x).ichBusyBut c u) = false := by
    rw [show (d2.setIch c x).cacheMode c = d2.cacheMode c from rfl, beq_false_of_ne hmode, Bool.false_and]
  simp only [Dev.decodeTask, hwork, hc, hen, hlane, ← hd1, henter, hw, hexp, hpipe, hplace, hlast, hflush]
  simp

end Placed

/-! Channels -/

@[simp] theorem Dev.ich_setIch (d : Dev) (c : Nat) (x : IchSt) : (d.setIch c x).ich c = x := by
  simp [Dev.ich, Dev.setIch]
theorem Dev.ich_setIch_ne (d : Dev) {c e : Nat} (x : IchSt) (h : e ≠ c) : (d.setIch c x).ich e = d.ich e := by
  simp [Dev.ich, Dev.setIch, tget_tput_ne _ _ _ h]

/-! Assist tickets (R178) -/

/-- What the naming of tags changes lies in the field book. -/
theorem Dev.nameTags_frame {β : Type} (π : Dev → β) (hπ : ∀ (e : Dev) (x : Fb), π { e with fb := x } = π e) (d : Dev)
    (ops : List ColOp) (tag : Tag) : π (d.nameTags ops tag) = π d := by
  have hname (e : Dev) (unit stream : Nat) : π (e.nameTag unit stream tag) = π e := by
    unfold Dev.nameTag
    dsimp only
    split
    · rfl
    · exact hπ _ _
  unfold Dev.nameTags
  split
  · rfl
  · refine foldl_frame π (fun e o => ?_) ops d
    split
    · split
      · exact hname _ _ _
      · rfl
    · rfl

theorem Dev.nameHeld_ichs (d : Dev) (q : Nat) : (d.nameHeld q).ichs = d.ichs :=
  foldl_frame Dev.ichs (fun _ _ => Dev.nameTags_frame Dev.ichs (fun _ _ => rfl) _ _ _) _ d

theorem Dev.noteMax_ichs (d : Dev) (q : Nat) : (d.noteMax q).ichs = d.ichs := by
  refine (foldl_frame Dev.ichs (fun e p => ?_) (List.range 8) _).trans rfl
  dsimp only
  split <;> rfl

/-- Whether a channel diverts may change with its depth, its tickets not. -/
theorem Dev.watchDepth_tickets (d : Dev) (q c : Nat) : ((d.watchDepth q).ich c).tickets = (d.ich c).tickets := by
  refine foldl_frame (fun e : Dev => (e.ich c).tickets) (fun e x => ?_) d.ichs d
  dsimp only
  split
  · rfl
  · generalize (e.assists x.1 && _) = on
    split
    · rfl
    · by_cases hx : c = x.1
      · subst hx; rw [Dev.ich_setIch]
      · rw [Dev.ich_setIch_ne _ _ hx]

/-- A promotion leaves each channel its tickets. -/
theorem Dev.promote_tickets (d : Dev) (q c : Nat) : ((d.promote q).ich c).tickets = (d.ich c).tickets := by
  unfold Dev.promote
  dsimp only
  rw [Dev.watchDepth_tickets, Dev.ich, Dev.noteMax_ichs]
  exact congrArg (fun l => (tget {} l c : IchSt).tickets) (d.nameHeld_ichs q)

theorem Dev.accrue_ichs (d : Dev) (q : Nat) : (d.accrue q).ichs = d.ichs := by
  unfold Dev.accrue
  dsimp only
  split <;> split <;> rfl

theorem Task.fill_slots (t : Task) (a : Arrival) : (t.fill a).slots = tput t.slots (Pkt.slot a.pkt) a := by
  unfold Task.fill
  dsimp only
  split <;> rfl

theorem Task.fill_uid (t : Task) (a : Arrival) : (t.fill a).uid = t.uid := by
  unfold Task.fill
  dsimp only
  split <;> rfl

/-- A task that waits for a ticket's result stands in the quadrant of the channel's ring. -/
theorem Dev.task_of_ticket {d : Dev} {c : Nat} {k : Ticket} {t : Task} {m : RingMap} (hring : d.ichRing c = some m)
    (h : d.ticketTask c k = some t) : ∃ v, d.task m.quad t.uid = some v := by
  have hmem := List.mem_of_find?_eq_some h
  rw [Dev.ichTasks, hring] at hmem
  exact Option.isSome_iff_exists.mp (List.find?_isSome.mpr ⟨t, (List.mem_filter.mp hmem).1, beq_self_eq_true _⟩)

/-- The ticket that is answered is gone. -/
theorem Dev.answerTicket_tickets {d : Dev} {c : Nat} {k : Ticket} {t : Task} (a : Arrival) :
    ∀ x ∈ ((d.answerTicket c k t a).ich c).tickets, x.ticket ≠ k.ticket := by
  have hgone (e : Dev) (he : e.ichs = (d.setIch c { d.ich c with
      tickets := (d.ich c).tickets.filter (fun e => e.ticket != k.ticket) }).ichs) :
      ∀ x ∈ (e.ich c).tickets, x.ticket ≠ k.ticket := by
    rw [Dev.ich, he, ← Dev.ich, Dev.ich_setIch]
    exact fun x hx => bne_iff_ne.mp (List.mem_filter.mp hx).2
  unfold Dev.answerTicket
  dsimp only
  split
  · rw [Dev.promote_tickets]
    exact hgone _ (Dev.accrue_ichs _ _)
  · exact hgone _ rfl

/-- The task of a ticket that is answered has its slot filled. -/
theorem Dev.answerTicket_task {d : Dev} {c : Nat} {k : Ticket} {t v : Task} {m : RingMap} (a : Arrival)
    (hring : d.ichRing c = some m) (h : d.task m.quad t.uid = some v) :
    ∃ u, (d.answerTicket c k t a).task m.quad t.uid = some u ∧ u.slots = tput v.slots (Pkt.slot a.pkt) a := by
  have hring' (x : IchSt) : (d.setIch c x).ichRing c = some m := hring
  unfold Dev.answerTicket
  simp only [hring']
  have hfill : ((((d.setIch c { d.ich c with tickets := (d.ich c).tickets.filter (fun e => e.ticket != k.ticket) }).accrue
      m.quad).updTask m.quad t.uid (fun t => t.fill a)).task m.quad t.uid) = some (v.fill a) := by
    rw [Dev.task_updTask _ _ _ (fun t => t.fill_uid a), Dev.task, (Dev.accrue_frame _ _).2]
    show (d.task m.quad t.uid).map _ = _
    rw [h]
    rfl
  obtain ⟨ph, hph⟩ := Dev.task_promote hfill
  exact ⟨_, hph, v.fill_slots a⟩

theorem Pkt.slot_mkPkt (quad role epoch seat lane pri tag payload length arg : Nat) {opcount slot : Nat} (hop : opcount < 16)
    (hslot : slot < 4) : Pkt.slot (mkPkt quad role epoch seat lane opcount slot pri tag payload length arg) = slot := by
  have hbyte : fld (mkPkt quad role epoch seat lane opcount slot pri tag payload length arg) 8 1 = opcount + slot * 16 := by
    simp [fld, slice, mkPkt, leB, ofLe]
    omega
  rw [Pkt.slot, hbyte, bits]
  omega

/-- A ticket that has waited for its limit is given up, and its task gets the slot of the result filled (R178). -/
theorem Dev.assistTimeout_due {d : Dev} {c ticket : Nat} {k : Ticket} {t : Task} {m : RingMap}
    (hk : (d.ich c).tickets.find? (fun k => k.ticket == ticket) = some k) (hage : max 1 (d.rf (ichReg c 0x30) 7 0) ≤ k.bells)
    (hring : d.ichRing c = some m) (ht : d.ticketTask c k = some t) :
    (∀ x ∈ ((d.assistTimeout c ticket).ich c).tickets, x.ticket ≠ k.ticket)
      ∧ ∃ u, (d.assistTimeout c ticket).task m.quad t.uid = some u ∧ (tfind u.slots 1).isSome = true := by
  obtain ⟨v, hv⟩ := Dev.task_of_ticket hring ht
  simp only [Dev.assistTimeout, hk, if_neg (Nat.not_lt.mpr hage), ht, hring, Option.getD_some]
  refine ⟨Dev.answerTicket_tickets _, ?_⟩
  obtain ⟨u, hu, hslots⟩ := Dev.answerTicket_task (k := k)
    { pkt := mkPkt m.quad 1 0 0xFFFF m.lane 2 1 0 t.tag.toNat 0 0 t.arg, sender := 0x8000 } hring hv
  refine ⟨u, hu, ?_⟩
  rw [hslots, Pkt.slot_mkPkt _ _ _ _ _ _ _ _ _ _ (by decide) (by decide), tfind_tput_same]
  rfl

/-! Replay (R174) -/

/-- A batch at the front of an enabled channel's window is sent; the last of a term ends the term. -/
theorem Dev.replaySend_front {d : Dev} {c n : Nat} {b : WinBatch} {rest : List WinBatch}
    (hfront : ((d.refill c).ich c).front = b :: rest) (hseat : (d.refill c).ichSeat c = some n)
    (hen : (d.refill c).rbit (ichReg c 0) 31 = true) :
    d.replaySend c
      = let e := ((d.refill c).setIch c { (d.refill c).ich c with front := rest }).sendBatch n
          { payload := b.slot, length := b.length, corrupt := b.corrupt, subst := b.subst, tag := some b.tag }
        if b.last = true ∧ rest = [] ∧ b.term = ((d.refill c).ich c).term then e.termEnd c else e := by
  simp [Dev.replaySend, hfront, hseat, hen, and_assoc]

/-- An armed swap with its front window spent and its back window full, or with the term's last batch, puts the back window in
front. -/
theorem Dev.windowSwap_ready {d : Dev} {c : Nat} (hrep : (d.refill c).replaying c = true)
    (harm : (d.refill c).swapArmed c = true) (hfront : ((d.refill c).ich c).front = [])
    (hback : ((d.refill c).ich c).back ≠ [])
    (hfull : Dp.window ((d.refill c).ich c).params ≤ ((d.refill c).ich c).back.length
      ∨ ((d.refill c).ich c).cached.length ≤ ((d.refill c).ich c).pos) :
    d.windowSwap c = ((d.refill c).setIch c
      { (d.refill c).ich c with front := ((d.refill c).ich c).back, back := [], armed := false }).refill c := by
  simp [Dev.windowSwap, hrep, harm, hfront, hback, hfull]

/-! The CMD register of a channel (R180) -/

theorem ichCmd_window (c : Fin 16) :
    MEM + 0x30000 ≤ ichReg c.val 0x54 ∧ ichReg c.val 0x54 < MEM + 0x31000 ∧ ichReg c.val 0x54 % 0x100 = 0x54
      ∧ (ichReg c.val 0x54 - (MEM + 0x30000)) / 0x100 = c.val := by
  simp only [ichReg, MEM]
  omega

/-- CMD is none of the registers that another rule writes or whose write sets something else off. -/
theorem ichCmd_distinct (c : Fin 16) : let a := ichReg c.val 0x54
    ¬ a < TTB + 0x3000 ∧ a ≠ TTB ∧ ¬ a < GLB + 0x11C ∧ isMasked a = false ∧ a ≠ PHT ∧ a ≠ PHT + 0x40 ∧ a ≠ PLT ∧ a ≠ FLT
      ∧ a ≠ FLT + 0x14 ∧ a ≠ ATT + 0x20 ∧ a ≠ MEM + 0x20 ∧ a ≠ MEM + 0x31018 := by
  revert c
  decide

/-- Bits 0 and 1 of CMD are write-only, and no other bit is there. -/
theorem specOf_ichCmd : ∀ c : Fin 16, specOf (ichReg c.val 0x54) = { o := 3 } := by decide

/-- A write of CMD gives the channel its commands and stores nothing. -/
theorem Dev.regWrite_ichCmd (d : Dev) (c : Fin 16) (v : Word) : d.regWrite (ichReg c.val 0x54) v = d.ichCmd c.val v.toNat := by
  obtain ⟨hlo, hhi, hoff, hnum⟩ := ichCmd_window c
  obtain ⟨htime, httb, hpin, hmasked, hpht, hbell, hplt, hflt, hack, hsnap, herr, htd⟩ := ichCmd_distinct c
  have hmask : writeMask (ichReg c.val 0x54) v = 0xFFFFFFFF#32 := by
    rw [writeMask, hmasked, if_neg Bool.false_ne_true]
  have hown : d.ownWrite (ichReg c.val 0x54) 0xFFFFFFFF#32 v false = none := by
    unfold Dev.ownWrite
    rw [if_neg (fun h => htime h.2.1), if_neg (fun h => htime h.2.1), if_neg httb, if_neg (fun h => hpin h.2)]
  have hput : d.put32 (ichReg c.val 0x54) 0xFFFFFFFF#32 v false = d := by
    refine d.put32_none _ _ v false ?_ ?_ ?_ <;> rw [specOf_ichCmd] <;> decide
  have hall : v &&& 0xFFFFFFFF#32 = v := BitVec.and_allOnes
  rw [Dev.regWrite, hmask, Dev.putReg, if_neg (by decide), hown]
  simp only [hput, hmasked, Dev.globalEffect, hpht, hbell, hplt, hflt, hack, hsnap, herr, htd, hlo, hhi, hoff, hnum, hall,
    Bool.false_eq_true, and_self, if_false, if_true]

theorem bit_toNat (v : Word) (i : Nat) : bit v.toNat i = v.getLsbD i := by
  rw [BitVec.getLsbD, Nat.testBit_eq_decide_div_mod_eq, bit]
  rfl

theorem Dev.ichCmd_swap {d : Dev} {c v : Nat} (hused : (d.ich c).params ≠ []) (h1 : bit v 1 = true) (h0 : bit v 0 = false) :
    d.ichCmd c v = d.setIch c { d.ich c with armed := true } := by
  simp [Dev.ichCmd, Dev.armSwap, h1, h0, hused]

theorem Dev.ichCmd_advance {d : Dev} {c v : Nat} (hused : (d.ich c).params ≠ []) (h1 : bit v 1 = false) (h0 : bit v 0 = true) :
    d.ichCmd c v = d.setIch c { d.ich c with advance := true } := by
  simp [Dev.ichCmd, h1, h0, hused]

/-- Settles O46, by what each operation of a channel answers in the case stated. That a DECODE task ends as it was but for its
status and results rests on this: neither the reading of its data nor the placing of its samples, with the faults they may
report, changes a task. -/
theorem intake : Obligations.Intake := by
  intro s
  refine ⟨?decode, ?ticket, ?send, ?swap, ?cmd⟩
  case decode =>
    intro seat q t w d2 rs hrun hwork
    dsimp only
    intro hen hlane hw hexp hpipe hplace hmode hflush
    have hend := yields_of_onDev (c := .decodeTask seat) (f := fun d => d.decodeTask seat.val) rfl hrun
    rw [Dev.decodeTask_of_placed rfl hplace rfl hwork hen hlane hw hexp hpipe hmode hflush] at hend
    have htask : d2.task q t.uid = some t := by
      rw [Dev.task, Dev.quad, Dev.quads_of_placed rfl hplace]
      exact Dev.task_of_atWork hwork
    refine ⟨_, hend, ?_, Dev.task_workDone htask w.status rs⟩
    show ((d2.setIch _ _).ich _).work = none
    rw [Dev.ich_setIch]
  case ticket =>
    intro c ticket k t m hrun hk hage hring ht
    exact ⟨_, yields_of_onDev rfl hrun, Dev.assistTimeout_due hk hage hring ht⟩
  case send =>
    intro c b rest n hrun
    dsimp only
    intro hfront hseat hen
    have hsend := yields_of_onDev (c := .replayBatchSend c) (f := fun d => d.replaySend c.val) rfl hrun
    rwa [Dev.replaySend_front hfront hseat hen] at hsend
  case swap =>
    intro c hrun
    dsimp only
    intro hrep harm hfront hback hfull
    have hswap := yields_of_onDev (c := .windowSwap c) (f := fun d => d.windowSwap c.val) rfl hrun
    rwa [Dev.windowSwap_ready hrep harm hfront hback hfull] at hswap
  case cmd =>
    intro m c v hm hused
    have hwrite {i : Instr} (hi : exec i s = .next (s.write m (ichReg c.val 0x54) v)) :
        Yields i s (s.dev.ichCmd c.val v.toNat) := by
      rw [← Dev.regWrite_ichCmd]
      exact yields_of_write hi hm (fun hc => absurd (Nat.le_trans (ichCmd_window c).1 (Nat.le_of_lt hc.2)) (by decide))
    refine ⟨fun h1 h0 => ?_, fun h1 h0 => ?_⟩
    · rw [← Dev.ichCmd_swap hused (by rw [bit_toNat, h1]) (by rw [bit_toNat, h0])]
      exact hwrite rfl
    · rw [← Dev.ichCmd_advance hused (by rw [bit_toNat, h1]) (by rw [bit_toNat, h0])]
      exact hwrite rfl

end Sys2Proof.Machine
end
